-- ==== Sys2Proof/Word.lean ====
section
/-!
DEFINITION. The word types of the scan cycle edge detector. Every value of the block is unsigned, bit 0 is the least
significant bit (rule R11 of 00_scope.md). The widths are those of rules R6 and R9.
-/

namespace Sys2Proof

/-- A byte: a segment-bus value (`SEG_W = 8`), a LineEvent (`EVT_W = 8`), a byte of a stimulus record, a queue index
(`QIDX_W = 8`). -/
abbrev Byte := BitVec 8

/-- 16 bits: the idle-duration counter (`IDLE_W = 16`), the overrun counter (`OVR_W = 16`), the result of `SRD`. -/
abbrev Half := BitVec 16

/-- 32 bits: a time value (`TIME_W = 32`), the watchdog (`WDG_W = 32`), the result of `DRD`. -/
abbrev Word := BitVec 32

/-- 14 bits, bit `p` for position `p` (`NPOS = 14`, rules R6, R11). -/
abbrev Mask := BitVec 14

/-- The index 0 to 13 of a sample within one scan cycle (rule R85 of 41_sampling.md). -/
abbrev Position := Fin 14

end Sys2Proof
end

