-- ==== Sys2Proof/Config.lean ====
section
/-!
DEFINITION. The configuration of one instance of the block (rules R6 to R10 of 00_scope.md), and the free values of the
model. A configuration is constant for a run (rule R54 of 20_memory.md). The nine parameters of rule R8 are OPEN: nothing
here gives one a value. Of the parameters rule R9 fixes, the widths and the event codes are types and constants of the model,
and `VK_NONBLANK_ALWAYS` is a field whose default, and whose value at reset, is rule R9's `false`.
-/

namespace Sys2Proof

/-- The parameters of one instance. `NUM_LINES` and `QUEUE_CAP` are powers of two by rule R7 ("capacity MUST be a power of
two"), so their exponents are what an instance chooses; a size that is no power of two is not an instance of this block
(93_implementation_defined.md U8). DESIGN CHOICE, safe (log 15). -/
structure Config where
  /-- `log2 NUM_LINES`, 0 to 4 (rule R7: `NUM_LINES` is 1, 2, 4, 8 or 16). -/
  linesLog : Fin 5
  /-- `log2 QUEUE_CAP`, 0 to 7 (rule R7: `QUEUE_CAP` is 1, 2, 4, …, 128). -/
  queueLog : Fin 8
  /-- `WDG_TICK_MS` (rule R7): a property of the TICKER agent; no rule of the block reads it. -/
  wdgTickMs : Nat
  /-- `PERIOD_FLOOR` (rule R8): a measured period strictly below this is noise. -/
  periodFloor : Word
  /-- `FIRST_TICK_EXTRA` (rule R8): added to the reload programmed for the first tick only. -/
  firstTickExtra : Word
  /-- `CORR_STEP` (rule R8): subtracted from the live reload at every 4th sample. -/
  corrStep : Word
  /-- `SETTLE_DELAY` in microseconds (rule R8): 1 to 9, or 0 when clock calibration failed (rule R73). Timing only: no
  rule of the block reads it. -/
  settleDelay : Fin 10
  /-- `EXEC_POS` (rule R8): the virtual-key position of the program-execution marker. -/
  execPos : Position
  /-- `EXEC_SENTINEL` (rule R8): the marker pattern. -/
  execSentinel : Byte
  /-- `SIGN_POS` (rule R8): the sign position. -/
  signPos : Position
  /-- `SIGN_KEEP` (rule R8): the one valid segment bit of the sign position. -/
  signKeep : Byte
  /-- `WDG_TIMEOUT_TICKS` (rule R8): the watchdog timeout in ticks. -/
  wdgTimeoutTicks : Word
  /-- `VK_NONBLANK_ALWAYS` (rule R9: `false`): whether virtual-key positions take part in blank detection when the console
  flags are off. The spec keeps the other value as a parameter (92_eei_decisions.md D14; profile T3). -/
  vkNonblankAlways : Bool := false
  deriving DecidableEq, Repr, Inhabited

/-- `NUM_LINES` (rule R7). -/
def Config.numLines (c : Config) : Nat := 2 ^ c.linesLog.val

/-- `QUEUE_CAP` (rule R7). -/
def Config.queueCap (c : Config) : Nat := 2 ^ c.queueLog.val

/-- A well-formed configuration (rule R10). The size conditions of rule R10 hold of every `Config`. -/
def Config.wf (c : Config) : Bool :=
  (c.execPos == 12 || c.execPos == 13)
  && ([1, 2, 4, 8, 16, 32, 64, 128] : List Byte).contains c.signKeep
  && decide (1 ≤ c.wdgTimeoutTicks.toNat)
  && decide (14 ≤ c.periodFloor.toNat)
  && decide (3 * c.corrStep.toNat < c.periodFloor.toNat / 14)

/-- An instance nothing is known about, so that no proof can lean on a value the spec leaves OPEN (rule R8) or gives per
instance (rule R7). DESIGN CHOICE, safe (log 3). -/
opaque Config.openParameters : Config

/-- The configuration of the machine as it leaves reset: the open parameters, and `VK_NONBLANK_ALWAYS = false` as rule R9
fixes it. -/
def Config.chip : Config := { Config.openParameters with vkNonblankAlways := false }

/-- FREE VALUE: what `hist[slot].seg[k]` reads as when nothing has written the slot since reset (rule R39 of 10_state.md:
"returns an unspecified value"); the arguments are the draw counter, the slot and `k`. DESIGN CHOICE, safe (log 5). -/
opaque Config.unwrittenSeg : Nat → Nat → Nat → Byte

/-- FREE VALUE: what `hist[slot].idle` reads as when nothing has written the slot since reset (rule R39); the arguments
are the draw counter and the slot. DESIGN CHOICE, safe (log 5). -/
opaque Config.unwrittenIdle : Nat → Nat → Half

/-- FREE VALUE: what a `q_buf` entry reads as when nothing has written it since reset (rule R39); the arguments are the
draw counter and the entry's physical position. DESIGN CHOICE, safe (log 5). -/
opaque Config.unwrittenEvent : Nat → Nat → Byte

end Sys2Proof
end

