-- ==== Sys2Proof/Syntax.lean ====
section
/-!
DEFINITION. The rows of spec/opcode_table.json: the eleven operations of rule R61 of 30_encoding.md with their operands,
and the two forms of the LineEvent byte (rules R55 to R60); and the pseudo-operations of rule R66.
-/

namespace Sys2Proof

/-- One row of the opcode table, with its operands. The first eleven are the block's operations (rule R61); the last two
are the LineEvent forms, which the consumer decodes (rule R60). -/
inductive Instr where
  /-- `RST` (rule R146): reset. -/
  | rst
  /-- `GRD0` (rule R69): the grid line is low. -/
  | grd0
  /-- `GRD1 now seg` (rule R70): the grid line is high. -/
  | grd1 (now : Word) (seg : Byte)
  /-- `TEX` (rule R88): the countdown timer expires. -/
  | tex
  /-- `TTK seg` (rule R89): service of one timer tick. -/
  | ttk (seg : Byte)
  /-- `MST` (rule R117): one watchdog tick. -/
  | mst
  /-- `POP` (rule R109): the consumer's non-blocking dequeue. -/
  | pop
  /-- `SRD idx k` (rule R110): read one field of a history slot. -/
  | srd (idx k : Byte)
  /-- `WRD` (rule R118): read the watchdog. -/
  | wrd
  /-- `DRD k` (rule R120): diagnostic read of one word. -/
  | drd (k : Byte)
  /-- `FLG f` (rule R121): set the two console flags. -/
  | flg (f : Byte)
  /-- `EV_NORMAL`, the LineEvent `Normal` with slot `idx` (rules R59, R60). -/
  | evNormal (executing : Bool) (idx : BitVec 4)
  /-- `EV_IDLE`, the LineEvent `Idle` (rules R59, R60). -/
  | evIdle (executing : Bool)
  deriving DecidableEq, Repr

/-- The two spaces of the opcode table: stimulus records (rule R62) and LineEvent bytes (rule R55). -/
inductive Space where
  | stimulus
  | lineEvent
  deriving DecidableEq, Repr

/-- The space a row belongs to. -/
def Instr.space : Instr → Space
  | .rst | .grd0 | .grd1 _ _ | .tex | .ttk _ | .mst | .pop | .srd _ _ | .wrd | .drd _ | .flg _ => .stimulus
  | .evNormal _ _ | .evIdle _ => .lineEvent

/-- The agents of rule R5 of 00_scope.md, and the reset input of rule R61, which is no agent. -/
inductive Agent where
  | calc
  | timer
  | producer
  | ticker
  | consumer
  | console
  | resetInput
  deriving DecidableEq, Repr

/-- The contexts an operation runs in (rule R61's agent column): `GRD1` is CALC's and, when it carries an unmasked rising
edge, PRODUCER's. -/
def Instr.agents : Instr → List Agent
  | .rst => [.resetInput]
  | .grd0 => [.calc]
  | .grd1 _ _ => [.calc, .producer]
  | .tex => [.timer]
  | .ttk _ => [.producer]
  | .mst => [.ticker]
  | .pop | .srd _ _ | .wrd | .drd _ => [.consumer]
  | .flg _ => [.console]
  | .evNormal _ _ | .evIdle _ => [.consumer]

/-- The pseudo-operations of rule R66. -/
inductive Pseudo where
  /-- `CSE now seg`: one full pulse of the grid line ending in a rising edge. -/
  | cse (now : Word) (seg : Byte)
  /-- `TK seg`: one timer expiry and its service. -/
  | tk (seg : Byte)
  /-- `CYCLE now s0 … s13`: one whole scan cycle. -/
  | cycle (now : Word) (segs : Vector Byte 14)
  /-- `SRDL idx`: read a whole line, field by field. -/
  | srdl (idx : Byte)
  /-- `MSTN n`: `MST` repeated `n` times. -/
  | mstn (n : Nat)
  deriving DecidableEq, Repr

end Sys2Proof
end

