-- ==== Sys2Proof/WellFormed.lean ====
section
/-!
DEFINITION. Well-formed operations: the guards of rule R61 of 30_encoding.md that depend on the operands alone. A record
that fails one is decodable but describes an operation that has no step (rule R64).
-/

namespace Sys2Proof

/-- The operand guards of rule R61: `SRD` needs `k ≤ 14`, `DRD` needs `k ≤ 3`. Every other operand value is legal. -/
def Instr.wf : Instr → Bool
  | .srd _ k => decide (k.toNat ≤ 14)
  | .drd k => decide (k.toNat ≤ 3)
  | .rst | .grd0 | .grd1 _ _ | .tex | .ttk _ | .mst | .pop | .wrd | .flg _ => true
  | .evNormal _ _ | .evIdle _ => true

end Sys2Proof
end

