-- ==== Sys2Proof/Decode.lean ====
section
/-!
DEFINITION. The two encodings of 30_encoding.md: the LineEvent byte (rules R55 to R60) and the stimulus record (rules R62
to R64). Decoders first, each total and rejecting by name, then the encoders, then the word form of the opcode table.
-/

namespace Sys2Proof

/-- Why a decoder rejects. -/
inductive Reject where
  /-- The trace is empty: there is no opcode byte. -/
  | endOfTrace
  /-- The opcode byte spells no operation (rule R64: `0x0B` to `0xFF`). -/
  | unknownOpcode (op : Byte)
  /-- The trace ends inside the record this opcode begins (rule R62 gives the lengths). -/
  | truncated (op : Byte)
  /-- The LineEvent class is `0b00` or `0b11` (rule R60). -/
  | reservedClass (b : Byte)
  deriving DecidableEq, Repr

/-- The 32-bit operand whose four bytes arrive least significant first (rule R63). -/
def timeOfBytes (b0 b1 b2 b3 : Byte) : Word := b3 ++ b2 ++ b1 ++ b0

/-- Decode the record at the head of a stimulus trace (rules R61 to R63); the answer is the operation and the rest of the
trace. The opcode byte alone decides the length. -/
def decodeStimulus : List Byte → Except Reject (Instr × List Byte)
  | [] => .error .endOfTrace
  | op :: rest =>
    match op.toNat with
    | 0 => .ok (.rst, rest)
    | 1 => .ok (.grd0, rest)
    | 2 =>
      match rest with
      | n0 :: n1 :: n2 :: n3 :: sg :: more => .ok (.grd1 (timeOfBytes n0 n1 n2 n3) sg, more)
      | _ => .error (.truncated op)
    | 3 => .ok (.tex, rest)
    | 4 =>
      match rest with
      | sg :: more => .ok (.ttk sg, more)
      | _ => .error (.truncated op)
    | 5 => .ok (.mst, rest)
    | 6 => .ok (.pop, rest)
    | 7 =>
      match rest with
      | idx :: k :: more => .ok (.srd idx k, more)
      | _ => .error (.truncated op)
    | 8 => .ok (.wrd, rest)
    | 9 =>
      match rest with
      | k :: more => .ok (.drd k, more)
      | _ => .error (.truncated op)
    | 10 =>
      match rest with
      | f :: more => .ok (.flg f, more)
      | _ => .error (.truncated op)
    | _ => .error (.unknownOpcode op)

/-- The class field `cls = ev[7:6]` of a LineEvent byte (rule R55). -/
def eventClass (b : Byte) : BitVec 2 := b.extractLsb' 6 2

/-- `CLS_NORMAL` (rule R56). -/
def clsNormal : BitVec 2 := 0b10#2

/-- `CLS_IDLE` (rule R56). -/
def clsIdle : BitVec 2 := 0b01#2

/-- Decode a LineEvent byte as the consumer does (rule R60): bit 4 is ignored, and so are bits 3:0 of an IDLE event; the
classes `0b00` and `0b11` are reserved and rejected. -/
def decodeEvent (b : Byte) : Except Reject Instr :=
  if eventClass b = clsNormal then .ok (.evNormal (b.getLsbD 5) (b.extractLsb' 0 4))
  else if eventClass b = clsIdle then .ok (.evIdle (b.getLsbD 5))
  else .error (.reservedClass b)

/-- The constructor `EVT(cls, exec, idx)`, the byte `cls[1:0] ++ exec ++ 0b0 ++ idx[3:0]` (rule R59). -/
def evt (cls : BitVec 2) (executing : Bool) (idx : BitVec 4) : Byte := cls ++ BitVec.ofBool executing ++ 0#1 ++ idx

/-- Byte `j` of a 32-bit operand, least significant first (rule R63). -/
def timeByte (t : Word) (j : Nat) : Byte := t.extractLsb' (8 * j) 8

/-- The bytes of a row: the stimulus record of an operation (rules R62, R63), the event byte of a LineEvent (rule R59). -/
def encode : Instr → List Byte
  | .rst => [0x00]
  | .grd0 => [0x01]
  | .grd1 now sg => [0x02, timeByte now 0, timeByte now 1, timeByte now 2, timeByte now 3, sg]
  | .tex => [0x03]
  | .ttk sg => [0x04, sg]
  | .mst => [0x05]
  | .pop => [0x06]
  | .srd idx k => [0x07, idx, k]
  | .wrd => [0x08]
  | .drd k => [0x09, k]
  | .flg f => [0x0A, f]
  | .evNormal executing idx => [evt clsNormal executing idx]
  | .evIdle executing => [evt clsIdle executing 0]

/-- The length in bytes of a row's encoding (rule R62; a LineEvent is one byte, rule R55). -/
def recordLength : Instr → Nat
  | .rst | .grd0 | .tex | .mst | .pop | .wrd => 1
  | .ttk _ | .drd _ | .flg _ => 2
  | .srd _ _ => 3
  | .grd1 _ _ => 6
  | .evNormal _ _ | .evIdle _ => 1

/-- The longest record: `GRD1`, 6 bytes (rule R62). -/
def maxRecordBytes : Nat := 6

/-- The bytes of a word of the opcode table in the order the decoder reads them: byte `j` is bits `8j+7..8j`. Bits at and
above `nbits` are 0, up to the longest record. -/
def tableBytes (nbits w : Nat) : List Byte :=
  (List.range maxRecordBytes).map fun j => BitVec.ofNat 8 ((w % 2 ^ nbits) / 2 ^ (8 * j))

/-- The row a word of the opcode table spells. The table has two spaces; a stimulus opcode byte (`0x00` to `0x0A`) has the
reserved event class `0b00`, so no byte begins a row of both, and the event decoder is asked only about a word that the
stimulus decoder rejects. DEDUCED, safe (log 18). -/
def decodeTableWord (nbits w : Nat) : Option Instr :=
  match decodeStimulus (tableBytes nbits w) with
  | .ok (i, _) => some i
  | .error _ =>
    match tableBytes nbits w with
    | [] => none
    | b :: _ =>
      match decodeEvent b with
      | .ok i => some i
      | .error _ => none

end Sys2Proof
end

