-- ==== Sys2Proof/Machine/State.lean ====
section
/-!
DEFINITION. The state of the block (10_state.md rules R15 to R39), plain data; the reasons a step can stop; and the state
after reset (rule R146 of 70_reset_and_hazards.md). Field names are the spec's, in Lean's spelling.
-/

namespace Sys2Proof.Machine

/-- The Scan Cycle State Machine's three states (rule R18). The code 3 is "never held" and has no constructor. -/
inductive Fsm where
  /-- `IDLE_WAIT`: no cycle in progress. -/
  | idleWait
  /-- `FIRST_EDGE`: first-ever edge seen, period unknown. -/
  | firstEdge
  /-- `SAMPLING`: timer running, positions 0..13 being sampled. -/
  | sampling
  deriving DecidableEq, Repr

/-- The 2-bit encoding of rule R18, visible on no interface. -/
def Fsm.code : Fsm → BitVec 2
  | .idleWait => 0
  | .firstEdge => 1
  | .sampling => 2

/-- A ScanLine record: 14 segment bytes and the 16-bit idle-duration counter (rule R42 of 20_memory.md). -/
structure ScanLine where
  seg : Vector Byte 14
  idle : Half
  deriving DecidableEq, Repr

/-- The tagged variant a LineEvent byte decodes to (rules R59, R60 of 30_encoding.md). -/
inductive LineEvent where
  | normal (slot : BitVec 4) (executing : Bool)
  | idle (executing : Bool)
  deriving DecidableEq, Repr

/-- What the operation just executed delivers (rule R61, column "result"). The model's own
(DESIGN CHOICE, safe; log 4). -/
inductive Result where
  /-- The operation has no result. -/
  | nothing
  /-- `POP -> None` (rule R109). -/
  | popNone
  /-- `POP -> Some(b)` (rule R109). -/
  | popSome (b : Byte)
  /-- `SRD`: the field's value, zero-extended to 16 bits (rule R110). -/
  | field (v : Half)
  /-- `WRD`: the watchdog and whether it has reached the timeout (rule R118). -/
  | watchdog (wdg : Word) (expired : Bool)
  /-- `DRD`: one 32-bit word (rule R120). -/
  | word (v : Word)
  /-- The consumer's decoding of a LineEvent byte (rule R60). -/
  | event (e : LineEvent)
  deriving DecidableEq, Repr

/-- The block's only memory, two index spaces of whole elements (rule R41 of 20_memory.md). Each is a list of index and
element with indices strictly rising; an index that is not listed holds no value (rule R39; DESIGN CHOICE, safe; log 9). -/
structure Memory where
  /-- The Line History Buffer `hist`. -/
  hist : List (Nat × ScanLine)
  /-- The Event Queue storage `q_buf`. -/
  qBuf : List Host.Cell
  deriving DecidableEq, Repr

/-- The state. The first group is the spec's (rule R15); the second is the model's own. -/
structure State where
  /-- `work[0..13]` (rule R16). -/
  work : Vector Byte 14
  /-- `idle_cnt` (rule R17). -/
  idleCnt : Half
  /-- `fsm` (rule R18). -/
  fsm : Fsm
  /-- `pos` (rule R19): "It takes only the values 0 to 13" (DESIGN CHOICE, safe; log 10). -/
  pos : Position
  /-- `chg_mask` (rule R21). -/
  chgMask : Mask
  /-- `nb_mask` (rule R22). -/
  nbMask : Mask
  /-- `idle_run` (rule R23). -/
  idleRun : Bool
  /-- `ts_valid` (rule R24). -/
  tsValid : Bool
  /-- `last_ts` (rule R25). -/
  lastTs : Word
  /-- `period` (rule R26). -/
  period : Word
  /-- `reload` (rule R27). -/
  reload : Word
  /-- `tmr_en` (rule R28). -/
  tmrEn : Bool
  /-- `tmr_reload` (rule R29). -/
  tmrReload : Word
  /-- `tmr_pending` (rule R30). -/
  tmrPending : Bool
  /-- `grid_q` (rule R31). -/
  gridQ : Bool
  /-- `wdg` (rule R32). -/
  wdg : Word
  /-- `q_head` (rule R33). -/
  qHead : Byte
  /-- `q_tail` (rule R34). -/
  qTail : Byte
  /-- `q_overrun` (rule R35). -/
  qOverrun : Half
  /-- `wr` (rule R36): `log2(NUM_LINES)` bits wide, kept below `NUM_LINES` (DESIGN CHOICE, safe; log 11). -/
  wr : BitVec 4
  /-- `f_hex` (rule R38). -/
  fHex : Bool
  /-- `f_key` (rule R38). -/
  fKey : Bool
  /-- `hist` and `q_buf` (rule R39). -/
  mem : Memory
  /-- The instance's configuration, constant for a run (rule R54). The model's own field (DESIGN CHOICE, safe; log 3). -/
  cfg : Config
  /-- The bytes of the stimulus records the agents have still to take (rule R62). The model's own field (DESIGN CHOICE, safe;
  log 1). -/
  trace : List Byte
  /-- A LineEvent byte handed to the consumer's decoder (rule R60). The model's own field (DESIGN CHOICE, safe; log 2). -/
  handed : Option Byte
  /-- The result of the operation just executed (rule R61). The model's own field (DESIGN CHOICE, safe; log 4). -/
  out : Result
  /-- Selects the free value an unwritten element reads as. The model's own field; no statement rests on it (DESIGN CHOICE,
  safe; log 5). -/
  draw : Nat
  deriving DecidableEq, Repr

/-- Why the machine stops with a fault. -/
inductive Fault where
  /-- Raised by `POP` and by the consumer's decoder of a handed byte when the byte's class is `0b00` or `0b11`: "a model
  should treat it as a fault of the run, never as a value" (rule R60 of 30_encoding.md). Safe: the spec gives the byte no
  effect. -/
  | reservedEvent (b : Byte)
  deriving DecidableEq, Repr

/-- Why a step is refused. A refusal is no trap of the block, which has none (rule R126): it says that the machine has no
such step (rule R64). All are safe (DESIGN CHOICE; log 7). -/
inductive Refusal where
  /-- Raised by `exec` for an instruction without a meaning. Safe. -/
  | notModelled (mnemonic : String)
  /-- Raised by fetching when the trace is empty: no agent acts, so there is no step (rule R14). Safe. -/
  | noStimulus
  /-- Raised by fetching when the opcode byte spells no operation (rule R64). Safe. -/
  | unknownOpcode (op : Byte)
  /-- Raised by fetching when the trace ends inside a record (rule R62). Safe. -/
  | truncatedRecord (op : Byte)
  /-- Raised by `TEX` when `tmr_en = 0`: the guard is false, the operation has no step (rules R64, R88). Safe. -/
  | texDisabled
  /-- Raised by `TTK` when not (`tmr_en = 1` and `tmr_pending = 1`): no step (rules R64, R89). Safe. -/
  | ttkDisabled
  /-- Raised by `SRD` when `k > 14`: no step (rules R64, R110). Safe. -/
  | srdFieldOutOfRange (k : Byte)
  /-- Raised by `DRD` when `k > 3`: no step (rules R64, R120). Safe. -/
  | drdWordOutOfRange (k : Byte)
  deriving DecidableEq, Repr

/-- The machine right after reset (rule R146): every register 0, `fsm = IDLE_WAIT`, `grid_q = 1`, nothing written in
either array. The configuration is one whose open parameters nothing is known about; the environment has offered no stimulus yet (DESIGN CHOICE,
safe; log 1, log 3). -/
def State.reset : State where
  work := Vector.replicate 14 0
  idleCnt := 0
  fsm := .idleWait
  pos := 0
  chgMask := 0
  nbMask := 0
  idleRun := false
  tsValid := false
  lastTs := 0
  period := 0
  reload := 0
  tmrEn := false
  tmrReload := 0
  tmrPending := false
  gridQ := true
  wdg := 0
  qHead := 0
  qTail := 0
  qOverrun := 0
  wr := 0
  fHex := false
  fKey := false
  mem := { hist := [], qBuf := [] }
  cfg := Config.chip
  trace := []
  handed := none
  out := .nothing
  draw := 0

end Sys2Proof.Machine
end

