-- ==== Sys2Proof/Machine/Operands.lean ====
section
/-!
DEFINITION. Every operand form of the operations (rules R61, R63 of 30_encoding.md) and the index arithmetic of the two
arrays (20_memory.md rules R43, R44, R47).
-/

namespace Sys2Proof.Machine

/-- The slot `SRD`'s operand names: `idx mod NUM_LINES` (rules R47, R110). -/
def slotOfIdx (c : Config) (idx : Byte) : Nat := idx.toNat % c.numLines

/-- `SRD`'s guard: `k ≤ 14` (rule R110). -/
def srdEnabled (k : Byte) : Bool := decide (k.toNat ≤ 14)

/-- `DRD`'s guard: `k ≤ 3` (rule R120). -/
def drdEnabled (k : Byte) : Bool := decide (k.toNat ≤ 3)

/-- Field `k` of a ScanLine record as `SRD` delivers it: `zext_16` of `seg[k]` for `k ≤ 13`, else `idle` (rule R110). -/
def lineField (line : ScanLine) (k : Byte) : Half :=
  if h : k.toNat < 14 then (line.seg[k.toNat]).setWidth 16 else line.idle

/-- The word `DRD k` delivers: 0 `last_ts`, 1 `period`, 2 `reload`, 3 `zext_32(q_overrun)` (rule R120). -/
def diagWord (s : State) (k : Byte) : Word :=
  if k = 0 then s.lastTs
  else if k = 1 then s.period
  else if k = 2 then s.reload
  else s.qOverrun.setWidth 32

/-- `FLG`'s operand: `f[0]` is the new `f_hex` (rules R63, R121). -/
def flagHex (f : Byte) : Bool := f.getLsbD 0

/-- `FLG`'s operand: `f[1]` is the new `f_key`; `f[7:2]` are ignored (rules R63, R121). -/
def flagKey (f : Byte) : Bool := f.getLsbD 1

/-- The physical position of the queue entry numbered by a free-running index: `i & (QUEUE_CAP - 1)` (rule R44). -/
def queuePos (c : Config) (i : Byte) : Nat := (i &&& BitVec.ofNat 8 (c.queueCap - 1)).toNat

/-- The write cursor after an advance: `(wr + 1) mod NUM_LINES` (rules R13(g), R100). -/
def nextSlot (c : Config) (wr : BitVec 4) : BitVec 4 := BitVec.ofNat 4 ((wr.toNat + 1) % c.numLines)

/-- Whether a LineEvent byte's class is reserved: `0b00` or `0b11` (rule R60). -/
def eventReserved (b : Byte) : Bool := eventClass b != clsNormal && eventClass b != clsIdle

/-- The flat image of a ScanLine record, 16 bytes: `seg[0..13]`, then `idle` little-endian (rule R46). No operation uses
it. -/
def flatImage (line : ScanLine) : List Byte :=
  line.seg.toList ++ [line.idle.extractLsb' 0 8, line.idle.extractLsb' 8 8]

end Sys2Proof.Machine
end

