-- ==== Sys2Proof/Machine/Flags.lean ====
section
/-!
DEFINITION. Every flag computation and guard of the block: participation and the two masks (rules R86, R87 of
41_sampling.md), the edge detector (rule R70), the classification tests (rules R98, R99), the watchdog level (rule R119),
the queue tests (rule R45), the timer guards (rules R88, R89).
-/

namespace Sys2Proof.Machine

/-- `vk_on <- (f_hex | f_key)` (rule R86). -/
def vkOn (s : State) : Bool := s.fHex || s.fKey

/-- `part_chg(p) <- (p ≤ 11) or vk_on` (rule R86). -/
def partChg (s : State) (p : Position) : Bool := decide (p.val ≤ 11) || vkOn s

/-- `part_nb(p) <- (p ≤ 11) or vk_on or VK_NONBLANK_ALWAYS` (rule R86). -/
def partNb (s : State) (p : Position) : Bool := decide (p.val ≤ 11) || vkOn s || s.cfg.vkNonblankAlways

/-- The mask with only bit `p` set (rule R11: position `p` owns bit `p`). -/
def maskBit (p : Position) : Mask := 1#14 <<< p.val

/-- `if part: m[p] <- m[p] | bit` (rule R87). -/
def foldMask (m : Mask) (p : Position) (part bit : Bool) : Mask := if part && bit then m ||| maskBit p else m

/-- The edge detector: a rising edge is `grid_q = 0` followed by level 1 (rules R31, R70). -/
def risingEdge (s : State) : Bool := !s.gridQ

/-- The cycle-start source is masked while `fsm = SAMPLING` (rule R71). -/
def edgeMasked (s : State) : Bool := s.fsm == .sampling

/-- `exec <- (work[EXEC_POS] = EXEC_SENTINEL)`, all 8 bits compared (rule R98). -/
def execFlag (s : State) : Bool := s.work[s.cfg.execPos.val] == s.cfg.execSentinel

/-- `chg_any <- (chg_mask ≠ 0)` (rule R97). -/
def chgAny (s : State) : Bool := s.chgMask != 0

/-- `nb_any <- (nb_mask ≠ 0)` (rule R97). -/
def nbAny (s : State) : Bool := s.nbMask != 0

/-- The timeout level: `wdg ≥ WDG_TIMEOUT_TICKS` (rules R118, R119). -/
def wdgExpired (s : State) : Bool := decide (s.cfg.wdgTimeoutTicks ≤ s.wdg)

/-- `q_count = (q_head - q_tail) mod 256` (rule R45). -/
def queueCount (s : State) : Nat := (s.qHead - s.qTail).toNat

/-- The queue is empty if and only if `q_head = q_tail` (rule R45). -/
def queueEmpty (s : State) : Bool := s.qHead == s.qTail

/-- The queue is full if and only if `q_count = QUEUE_CAP` (rule R45). -/
def queueFull (s : State) : Bool := queueCount s == s.cfg.queueCap

/-- `TEX`'s guard: `tmr_en = 1` (rule R88). -/
def texEnabled (s : State) : Bool := s.tmrEn

/-- `TTK`'s guard: `tmr_en = 1` and `tmr_pending = 1` (rule R89). -/
def ttkEnabled (s : State) : Bool := s.tmrEn && s.tmrPending

/-- The tick that takes the 4th, 8th or 12th sample: `(p + 1) mod 4 = 0` (rules R89, R91). -/
def correctionDue (p : Position) : Bool := (p.val + 1) % 4 == 0

end Sys2Proof.Machine
end

