-- ==== Sys2Proof/Machine/Ops.lean ====
section
/-!
DEFINITION. The named operations over memory and registers that the meanings share: reading and writing the two index
spaces (rule R41 of 20_memory.md), saturating increments (rule R13(e)), delivering a result (rule R61), the Scan Timer
Controller (rules R81 to R83), the sampler (rule R87), the queue's `PUSH` (rule R107).

There is no operation for taking an exception and none for returning from one, because the block has neither: "The block
raises no synchronous exception, takes no trap and has no cause codes … and no handler vector" (rule R126 of
60_exceptions.md); entering a service "saves nothing and switches nothing" (rule R133) and "there is no return operation
and nothing to restore" (rule R134). The two services are `csEdge` (Grid.lean) and `execTtk` (Timer.lean).
-/

namespace Sys2Proof.Machine

/-- Read the element at an index; `none` when nothing is listed there. -/
def storeRead {α : Type} : List (Nat × α) → Nat → Option α
  | [], _ => none
  | (b, v) :: rest, a => if a = b then some v else storeRead rest a

/-- Write the element at an index, keeping the indices strictly rising. -/
def storeWrite {α : Type} : List (Nat × α) → Nat → α → List (Nat × α)
  | [], a, v => [(a, v)]
  | (b, w) :: rest, a, v =>
    if a < b then (a, v) :: (b, w) :: rest
    else if a = b then (a, v) :: rest
    else (b, w) :: storeWrite rest a v

/-- Every listed index is above `lo`, and the indices strictly rise. -/
def risesAbove {α : Type} : Nat → List (Nat × α) → Bool
  | _, [] => true
  | lo, (a, _) :: rest => decide (lo < a) && risesAbove a rest

/-- The canonical form of one index space: indices strictly rising. No listed element equals what an unlisted index reads
as, because an unlisted index holds no value. -/
def storeWf {α : Type} : List (Nat × α) → Bool
  | [] => true
  | (a, _) :: rest => risesAbove a rest

/-- Every listed index is below `n`. -/
def storeBelow {α : Type} (n : Nat) (m : List (Nat × α)) : Bool := m.all fun e => decide (e.1 < n)

/-- The canonical form of the block's memory. -/
def Memory.wf (m : Memory) : Bool := storeWf m.hist && storeWf m.qBuf

/-- Nothing is listed outside the two index spaces of an instance (rule R41). -/
def Memory.inSpace (c : Config) (m : Memory) : Bool :=
  storeBelow c.numLines m.hist && storeBelow c.queueCap m.qBuf

/-- `hist[i]`, if something has written it since reset. -/
def readSlot (s : State) (i : Nat) : Option ScanLine := storeRead s.mem.hist i

/-- `q_buf[i]`, if something has written it since reset. -/
def readEntry (s : State) (i : Nat) : Option Byte := storeRead s.mem.qBuf i

/-- `MemWrite(hist, i)` of all 15 fields of a slot (rule R48). -/
def writeSlot (i : Nat) (line : ScanLine) (s : State) : State :=
  { s with mem := { s.mem with hist := storeWrite s.mem.hist i line } }

/-- `MemWrite(q_buf, i, b)` (rule R107). -/
def writeEntry (i : Nat) (b : Byte) (s : State) : State :=
  { s with mem := { s.mem with qBuf := storeWrite s.mem.qBuf i b } }

/-- What field `k` of an unwritten slot reads as: a free value of the field's width (rule R39: "an unspecified value";
log 5). -/
def unwrittenField (draw slot : Nat) (k : Byte) : Half :=
  if k.toNat < 14 then (Config.unwrittenSeg draw slot k.toNat).setWidth 16 else Config.unwrittenIdle draw slot

/-- `MemRead(hist, i).field(k)` (rule R110). -/
def readField (s : State) (i : Nat) (k : Byte) : Half :=
  match readSlot s i with
  | some line => lineField line k
  | none => unwrittenField s.draw i k

/-- `MemRead(q_buf, i)` (rule R109); an unwritten entry reads as a free value (rule R39, log 5). -/
def readEvent (s : State) (i : Nat) : Byte :=
  match readEntry s i with
  | some b => b
  | none => Config.unwrittenEvent s.draw i

/-- An increment that saturates at the all-ones value (rule R13(e)). -/
def satInc {w : Nat} (v : BitVec w) : BitVec w := if v = BitVec.allOnes w then v else v + 1

/-- Deliver the result of an operation that changes no state of the block (rule R49: "pure reads"). -/
def answer (r : Result) (s : State) : State := { s with out := r }

/-- Deliver the result of an operation that acts; unwritten elements may read otherwise from here on (log 5). -/
def deliver (r : Result) (s : State) : State := { s with out := r, draw := s.draw + 1 }

/-- `TIMER.set_period(v)` (rule R81): latch the reload and clear a stale pending flag, as one operation. -/
def timerSetPeriod (v : Word) (s : State) : State := { s with tmrReload := v, tmrPending := false }

/-- `TIMER.enable()` (rule R82). -/
def timerEnable (s : State) : State := { s with tmrEn := true }

/-- `TIMER.disable()` (rule R83); it does not clear `tmr_pending`. -/
def timerDisable (s : State) : State := { s with tmrEn := false }

/-- The timer's expiry sets its pending flag (rules R30, R88). -/
def timerExpire (s : State) : State := { s with tmrPending := true }

/-- `SAMPLE(p, v)` (rule R87): fold `v ≠ work[p]` and `v ≠ 0` into the masks where the position takes part, and store `v`
always. -/
def sample (p : Position) (v : Byte) (s : State) : State :=
  { s with
    chgMask := foldMask s.chgMask p (partChg s p) (v != s.work[p.val])
    nbMask := foldMask s.nbMask p (partNb s p) (v != 0)
    work := s.work.set p.val v }

/-- An event discarded for want of room is counted (rules R35, R108). -/
def countOverrun (s : State) : State := { s with qOverrun := satInc s.qOverrun }

/-- `q_head <- (q_head + 1) mod 256` (rule R107). -/
def advanceHead (s : State) : State := { s with qHead := s.qHead + 1 }

/-- `q_tail <- (q_tail + 1) mod 256` (rule R109). -/
def advanceTail (s : State) : State := { s with qTail := s.qTail + 1 }

/-- `PUSH(b)` (rules R107, R108): the byte first, then the index; a full queue discards the new event and counts it. -/
def push (b : Byte) (s : State) : State :=
  if queueFull s then countOverrun s else advanceHead (writeEntry (queuePos s.cfg s.qHead) b s)

/-- The published copy of the working line: the sign byte masked (rule R103), `idle` the counter before its reset (rule
R104). -/
def publishedLine (s : State) : ScanLine where
  seg := s.work.set s.cfg.signPos.val (s.work[s.cfg.signPos.val] &&& s.cfg.signKeep)
  idle := s.idleCnt

end Sys2Proof.Machine
end

