-- ==== Sys2Proof/Machine/Console.lean ====
section
/-!
DEFINITION. The diagnostic read and the console flags (44_watchdog_diag.md rules R120, R121): `DRD`, `FLG`.
-/

namespace Sys2Proof.Machine

/-- `DRD k` (rule R120): enabled for `k ≤ 3`, a pure read. -/
def execDrd (k : Byte) (s : State) : Host.Outcome State Fault Refusal :=
  if drdEnabled k then .next (answer (.word (diagWord s k)) s) else .refused (.drdWordOutOfRange k)

/-- `f_hex <- f[0]`, `f_key <- f[1]` (rule R121). -/
def setFlags (f : Byte) (s : State) : State := { s with fHex := flagHex f, fKey := flagKey f }

/-- `FLG f` (rule R121): always enabled. -/
def execFlg (f : Byte) (s : State) : Host.Outcome State Fault Refusal :=
  .next (deliver .nothing (setFlags f s))

end Sys2Proof.Machine
end

