-- ==== Sys2Proof/Machine/Consumer.lean ====
section
/-!
DEFINITION. The consumer's queue and history operations (43_queue_consumer.md rules R109, R110) and its decoding of a
LineEvent byte (30_encoding.md rule R60): `POP`, `SRD`, `EV_NORMAL`, `EV_IDLE`.
-/

namespace Sys2Proof.Machine

/-- `POP` (rule R109): always enabled. A byte of a reserved class is a fault of the run (rule R60; safe, log 6). -/
def execPop (s : State) : Host.Outcome State Fault Refusal :=
  if queueEmpty s then .next (answer .popNone s)
  else
    let b := readEvent s (queuePos s.cfg s.qTail)
    if eventReserved b then .fault (.reservedEvent b)
    else .next (deliver (.popSome b) (advanceTail s))

/-- `SRD idx k` (rule R110): enabled for `k ≤ 14`, a pure read. -/
def execSrd (idx k : Byte) (s : State) : Host.Outcome State Fault Refusal :=
  if srdEnabled k then .next (answer (.field (readField s (slotOfIdx s.cfg idx) k)) s)
  else .refused (.srdFieldOutOfRange k)

/-- `EV_NORMAL`: the consumer decodes a NORMAL event (rule R60). No state of the block changes (DESIGN CHOICE, safe;
log 2). -/
def execEvNormal (executing : Bool) (idx : BitVec 4) (s : State) : Host.Outcome State Fault Refusal :=
  .next (answer (.event (.normal idx executing)) s)

/-- `EV_IDLE`: the consumer decodes an IDLE event (rule R60). No state of the block changes (DESIGN CHOICE, safe;
log 2). -/
def execEvIdle (executing : Bool) (s : State) : Host.Outcome State Fault Refusal :=
  .next (answer (.event (.idle executing)) s)

end Sys2Proof.Machine
end

