-- ==== Sys2Proof/Machine/Grid.lean ====
section
/-!
DEFINITION. The edge detector and the cycle-start service (40_cycle_start.md rules R69 to R80): `GRD0`, `GRD1`, `CS_EDGE`.
-/

namespace Sys2Proof.Machine

/-- `grid_q <- 0` (rule R69). -/
def lineLow (s : State) : State := { s with gridQ := false }

/-- `grid_q <- 1` (rule R70). -/
def lineHigh (s : State) : State := { s with gridQ := true }

/-- The first serviced edge ever only records its time (rules R74, R75). -/
def firstEdge (now : Word) (s : State) : State := { s with wdg := 0, lastTs := now, tsValid := true, fsm := .firstEdge }

/-- Every later serviced edge is measured, whether or not its cycle is then discarded (rules R74, R76). -/
def measured (now : Word) (s : State) : State := { s with wdg := 0, lastTs := now, period := now - s.lastTs }

/-- The accepted path of `CS_EDGE`, from the reload derivation on (rules R78 to R80); `p` is the measured period. The
settling delay of rule R73 stands before the masks are cleared and changes no state. -/
def startCycle (p : Word) (seg : Byte) (s : State) : State :=
  let reload := p / 14#32
  let s := timerSetPeriod (reload + s.cfg.firstTickExtra) { s with reload := reload }
  let s := sample 0 seg { s with chgMask := 0, nbMask := 0 }
  { timerEnable { s with pos := 1 } with fsm := .sampling }

/-- `CS_EDGE(now, seg)` (rule R72): zero the watchdog; the first edge ever only records its time (rule R75); a period
below the floor is discarded as noise (rules R76, R77); any other starts a cycle. -/
def csEdge (now : Word) (seg : Byte) (s : State) : State :=
  if !s.tsValid then firstEdge now s
  else if now - s.lastTs < s.cfg.periodFloor then measured now s
  else startCycle (now - s.lastTs) seg (measured now s)

/-- `GRD0` (rule R69): always enabled. -/
def execGrd0 (s : State) : Host.Outcome State Fault Refusal := .next (deliver .nothing (lineLow s))

/-- `GRD1 now seg` (rules R70, R71): always enabled; an edge while `fsm = SAMPLING` is dropped. -/
def execGrd1 (now : Word) (seg : Byte) (s : State) : Host.Outcome State Fault Refusal :=
  .next (deliver .nothing (if risingEdge s && !edgeMasked s then csEdge now seg (lineHigh s) else lineHigh s))

end Sys2Proof.Machine
end

