-- ==== Sys2Proof/Machine/Reset.lean ====
section
/-!
DEFINITION. `RST` (rule R146 of 70_reset_and_hazards.md).
-/

namespace Sys2Proof.Machine

/-- Every element at its reset value, every array element unwritten. The configuration and the environment's own fields
(the trace still to come, a byte handed to the consumer) are no state of the block and stay (DESIGN CHOICE, safe; log 8). -/
def resetBlock (s : State) : State :=
  { State.reset with cfg := s.cfg, trace := s.trace, handed := s.handed, out := s.out, draw := s.draw }

/-- `RST` (rule R146): always enabled. -/
def execRst (s : State) : Host.Outcome State Fault Refusal := .next (deliver .nothing (resetBlock s))

end Sys2Proof.Machine
end

