-- ==== Sys2Proof/Machine/Classify.lean ====
section
/-!
DEFINITION. Line classification and publication (42_classify_publish.md rules R97 to R105): `CLASSIFY`, which runs inside
the final `TTK` only.
-/

namespace Sys2Proof.Machine

/-- The NORMAL outcome (rule R100): the slot, then the event, then the cursor and the counters. -/
def publishNormal (s : State) : State :=
  let s' := push (evt clsNormal (execFlag s) s.wr) (writeSlot s.wr.toNat (publishedLine s) s)
  { s' with wr := nextSlot s.cfg s.wr, idleCnt := 0, idleRun := false }

/-- The BLANK outcome (rule R101): the first blank cycle of a run is reported, each later one counted. -/
def noteBlank (s : State) : State :=
  if s.idleRun then { s with idleCnt := s.idleCnt + 1 }
  else { push (evt clsIdle (execFlag s) 0) s with idleRun := true }

/-- `CLASSIFY()` (rules R97, R99): NORMAL, else BLANK, else UNCHANGED (rule R102: nothing). -/
def classify (s : State) : State :=
  if chgAny s && nbAny s then publishNormal s
  else if !nbAny s then noteBlank s
  else s

end Sys2Proof.Machine
end

