-- ==== Sys2Proof/Machine/Timer.lean ====
section
/-!
DEFINITION. The timer tick and the 14-step sequencer (41_sampling.md rules R88 to R94): `TEX`, `TTK`.
-/

namespace Sys2Proof.Machine

/-- The cycle's samples are over: the timer disabled, `pos` back at 0 (rule R93). -/
def samplingOver (s : State) : State := { timerDisable s with pos := 0 }

/-- The service of the tick that takes the 14th sample, after the sample (rule R93): the timer is disabled, the line
classified; no correction, no re-programming, `tmr_pending` stays. -/
def finishCycle (s : State) : State :=
  { classify (samplingOver s) with fsm := .idleWait }

/-- The service of any other tick, after the sample of position `p` (rules R91, R92): the correction where it is due, then
re-programming with the live reload. -/
def nextPosition (p : Position) (s : State) : State :=
  let reload := if correctionDue p then s.reload - s.cfg.corrStep else s.reload
  { timerSetPeriod reload { s with reload := reload } with pos := p + 1 }

/-- `TEX` (rule R88): enabled while `tmr_en = 1`. -/
def execTex (s : State) : Host.Outcome State Fault Refusal :=
  if texEnabled s then .next (deliver .nothing (timerExpire s)) else .refused .texDisabled

/-- `TTK seg` (rule R89): enabled while `tmr_en = 1` and `tmr_pending = 1`. -/
def execTtk (seg : Byte) (s : State) : Host.Outcome State Fault Refusal :=
  if ttkEnabled s then
    let sampled := sample s.pos seg s
    .next (deliver .nothing (if s.pos = 13 then finishCycle sampled else nextPosition s.pos sampled))
  else .refused .ttkDisabled

end Sys2Proof.Machine
end

