-- ==== Sys2Proof/Machine/Watchdog.lean ====
section
/-!
DEFINITION. The watchdog's tick and its read (44_watchdog_diag.md rules R117 to R119): `MST`, `WRD`.
-/

namespace Sys2Proof.Machine

/-- `wdg <- min(wdg + 1, 2^32 - 1)` (rule R117). -/
def tickWatchdog (s : State) : State := { s with wdg := satInc s.wdg }

/-- `MST` (rule R117): always enabled; the counter saturates. -/
def execMst (s : State) : Host.Outcome State Fault Refusal := .next (deliver .nothing (tickWatchdog s))

/-- `WRD` (rule R118): always enabled, a pure read. -/
def execWrd (s : State) : Host.Outcome State Fault Refusal := .next (answer (.watchdog s.wdg (wdgExpired s)) s)

end Sys2Proof.Machine
end

