-- ==== Sys2Proof/Machine/Dispatch.lean ====
section
/-!
DEFINITION. One arm per row of the opcode table, each one direct call of the row's meaning.
-/

namespace Sys2Proof.Machine

def exec (i : Instr) (s : State) : Host.Outcome State Fault Refusal :=
  match i with
  | .rst => Sys2Proof.Machine.execRst s
  | .grd0 => Sys2Proof.Machine.execGrd0 s
  | .grd1 now seg => Sys2Proof.Machine.execGrd1 now seg s
  | .tex => Sys2Proof.Machine.execTex s
  | .ttk seg => Sys2Proof.Machine.execTtk seg s
  | .mst => Sys2Proof.Machine.execMst s
  | .pop => Sys2Proof.Machine.execPop s
  | .srd idx k => Sys2Proof.Machine.execSrd idx k s
  | .wrd => Sys2Proof.Machine.execWrd s
  | .drd k => Sys2Proof.Machine.execDrd k s
  | .flg f => Sys2Proof.Machine.execFlg f s
  | .evNormal executing idx => Sys2Proof.Machine.execEvNormal executing idx s
  | .evIdle executing => Sys2Proof.Machine.execEvIdle executing s

end Sys2Proof.Machine
end

