-- ==== Sys2Proof/Machine/Fetch.lean ====
section
/-!
DEFINITION. Taking the next operation: the stimulus record at the head of the trace (30_encoding.md rules R62 to R64), or
the LineEvent byte handed to the consumer's decoder (rule R60); and placing a word of the opcode table where that is read.
-/

namespace Sys2Proof.Machine

/-- What a rejection by the stimulus decoder or the event decoder makes of the step: a reserved event class is a fault of
the run (rule R60); a trace that spells no operation has no step (rule R64). -/
def rejected {σ : Type} : Reject → Host.Outcome σ Fault Refusal
  | .endOfTrace => .refused .noStimulus
  | .unknownOpcode op => .refused (.unknownOpcode op)
  | .truncated op => .refused (.truncatedRecord op)
  | .reservedClass b => .fault (.reservedEvent b)

/-- The state with another trace still to come. -/
def setTrace (trace : List Byte) (s : State) : State := { s with trace := trace }

/-- The state with another byte, or none, handed to the consumer's decoder. -/
def setHanded (handed : Option Byte) (s : State) : State := { s with handed := handed }

/-- The next row to run, and the state with its bytes consumed. A byte handed to the consumer is decoded first: that
changes no state of the block, so its place in the interleaving does not matter (DESIGN CHOICE, safe; log 2). -/
def fetch (s : State) : Host.Outcome (Instr × State) Fault Refusal :=
  match s.handed with
  | some b =>
    match decodeEvent b with
    | .ok i => .next (i, setHanded none s)
    | .error e => rejected e
  | none =>
    match decodeStimulus s.trace with
    | .ok (i, rest) => .next (i, setTrace rest s)
    | .error e => rejected e

/-- Place a row's bytes where `fetch` reads next: a stimulus record before the rest of the trace, a LineEvent byte in the
consumer's decoder. Bytes that spell neither go where the trace is read. -/
def placeBytes (bytes : List Byte) (s : State) : State :=
  match decodeStimulus bytes with
  | .ok (_, rest) => setHanded none (setTrace (bytes.take (bytes.length - rest.length) ++ s.trace) s)
  | .error _ =>
    match bytes with
    | [] => s
    | b :: _ =>
      match decodeEvent b with
      | .ok _ => setHanded (some b) s
      | .error _ => setHanded none (setTrace bytes s)

end Sys2Proof.Machine
end

