-- ==== Sys2Proof/Machine/Step.lean ====
section
/-!
DEFINITION. One step: the next operation of the trace, run (rule R14 of 00_scope.md: "A step is one operation").
-/

namespace Sys2Proof.Machine

/-- Take the next operation and run it. Nothing else happens in a step: every operation is atomic (rule R14). -/
def step (s : State) : Host.Outcome State Fault Refusal :=
  match fetch s with
  | .next (i, s') => exec i s'
  | .fault f => .fault f
  | .refused r => .refused r

/-- The state with a word of the opcode table placed where `step` takes its next operation. -/
def State.withFetchWord (s : State) (nbits w : Nat) : State := placeBytes (tableBytes nbits w) s

end Sys2Proof.Machine
end

