-- ==== Sys2Proof/Machine/Trace.lean ====
section
/-!
DEFINITION. Traces of operations: the pseudo-operations' expansions (rule R66 of 30_encoding.md), a trace's bytes (rule
R62), a trace's lines (rule R65), and running a list of operations one after the other.
-/

namespace Sys2Proof.Machine

/-- The exact expansion of a pseudo-operation (rule R66). It is not atomic: it is a list of operations. -/
def expand : Pseudo → List Instr
  | .cse now seg => [.grd0, .grd1 now seg]
  | .tk seg => [.tex, .ttk seg]
  | .cycle now segs => [.grd0, .grd1 now segs[0]] ++ (segs.toList.drop 1).flatMap fun v => [.tex, .ttk v]
  | .srdl idx => (List.range 15).map fun k => .srd idx (BitVec.ofNat 8 k)
  | .mstn n => List.replicate n .mst

/-- The bytes of a stimulus trace: its records one after the other (rule R62). -/
def traceBytes (ops : List Instr) : List Byte := ops.flatMap encode

/-- Run operations one after the other, stopping at the first that has no step or faults. -/
def runOps : List Instr → State → Host.Outcome State Fault Refusal
  | [], s => .next s
  | i :: rest, s =>
    match exec i s with
    | .next s' => runOps rest s'
    | .fault f => .fault f
    | .refused r => .refused r

/-- A row's mnemonic (rule R61 and the opcode table). -/
def mnemonic : Instr → String
  | .rst => "RST"
  | .grd0 => "GRD0"
  | .grd1 _ _ => "GRD1"
  | .tex => "TEX"
  | .ttk _ => "TTK"
  | .mst => "MST"
  | .pop => "POP"
  | .srd _ _ => "SRD"
  | .wrd => "WRD"
  | .drd _ => "DRD"
  | .flg _ => "FLG"
  | .evNormal _ _ => "EV_NORMAL"
  | .evIdle _ => "EV_IDLE"

/-- A row's operands in the order of rule R61. -/
def operandValues : Instr → List Nat
  | .rst | .grd0 | .tex | .mst | .pop | .wrd => []
  | .grd1 now seg => [now.toNat, seg.toNat]
  | .ttk seg => [seg.toNat]
  | .srd idx k => [idx.toNat, k.toNat]
  | .drd k => [k.toNat]
  | .flg f => [f.toNat]
  | .evNormal executing idx => [executing.toNat, idx.toNat]
  | .evIdle executing => [executing.toNat]

/-- One line of a trace: the mnemonic, then its operands in decimal, separated by spaces (rule R65). -/
def traceLine (i : Instr) : String := " ".intercalate (mnemonic i :: (operandValues i).map Nat.repr)

end Sys2Proof.Machine
end

