-- ==== Sys2Proof/Machine/Clock.lean ====
section
/-!
DEFINITION. What a clocked realisation does with two stimuli on one clock edge (rule R132 of 60_exceptions.md). Each
tie-break is one of the two interleavings, so the step relation has nothing new in it (DESIGN CHOICE, safe; log 14).
-/

namespace Sys2Proof.Machine

/-- The order in which a clocked realisation takes two simultaneous operations: a watchdog tick before a cycle-start edge
("the reset wins"), a `POP` before the tick service that may push if the queue was non-empty and after it otherwise. No
rule orders any other pair. -/
def sameClock (s : State) : Instr → Instr → List Instr
  | .grd1 now seg, .mst => [.mst, .grd1 now seg]
  | .ttk seg, .pop => if queueEmpty s then [.ttk seg, .pop] else [.pop, .ttk seg]
  | .pop, .ttk seg => if queueEmpty s then [.ttk seg, .pop] else [.pop, .ttk seg]
  | a, b => [a, b]

end Sys2Proof.Machine
end

