-- ==== Sys2Proof/Machine/Timing.lean ====
section
/-!
DEFINITION. The timer values and sample instants of one cycle (rule R92 of 41_sampling.md, rule R160 of
70_reset_and_hazards.md). Rule R160 is informative and no step depends on this file (DEDUCED, safe; log 19).
-/

namespace Sys2Proof.Machine

/-- How many corrections the live reload has had when the next position to sample is `pos`: those of positions 3, 7 and 11
below it (rules R91, R92). -/
def corrections (pos : Nat) : Nat := if pos ≤ 3 then 0 else if pos ≤ 7 then 1 else if pos ≤ 11 then 2 else 3

/-- The table of rule R92: the value of `tmr_reload` after the sample of position `n`, 0 to 12, in units U, with
`r = period / 14`. It times the wait for position `n + 1`. -/
def waitAfter (c : Config) (r : Int) (n : Nat) : Int :=
  if n = 0 then r + c.firstTickExtra.toNat
  else if n ≤ 2 then r
  else if n ≤ 6 then r - c.corrStep.toNat
  else if n ≤ 10 then r - 2 * c.corrStep.toNat
  else r - 3 * c.corrStep.toNat

/-- The instant of the sample of position `n`, counted from the service of the cycle-start edge, service latency ignored
(rule R160). The settling delay is in the same unit U, taken as 1 microsecond. -/
def sampleOffset (c : Config) (r : Int) (n : Nat) : Int :=
  if n = 0 then c.settleDelay.val
  else c.settleDelay.val + c.firstTickExtra.toNat + n * r
    - c.corrStep.toNat * (max 0 ((n : Int) - 3) + max 0 ((n : Int) - 7) + max 0 ((n : Int) - 11))

end Sys2Proof.Machine
end

