-- ==== Sys2Proof/Safety.lean ====
section
/-!
DEFINITION. The terms claims are stated in: when an operation is enabled (rule R61), the elements of the state (rule R15)
and who may write them (rule R135), what an operation leaves unchanged, the unread events (rule R45), the conditions of
rule R127, the invariants (rules R20, R21, R36, R41, R45, R52, R59, R92), and the launch premises (rule R151).
-/

namespace Sys2Proof.Machine

/-- The guard column of rule R61. -/
def enabled : Instr → State → Bool
  | .tex, s => s.tmrEn
  | .ttk _, s => s.tmrEn && s.tmrPending
  | .srd _ k, _ => decide (k.toNat ≤ 14)
  | .drd k, _ => decide (k.toNat ≤ 3)
  | .rst, _ | .grd0, _ | .grd1 _ _, _ | .mst, _ | .pop, _ | .wrd, _ | .flg _, _ => true
  | .evNormal _ _, _ | .evIdle _, _ => true

/-- The elements of the block's state (rule R15: R16 to R36, R38 and the two arrays of R39). -/
inductive Element where
  | work | idleCnt | fsm | pos | chgMask | nbMask | idleRun | tsValid | lastTs | period | reload | tmrEn | tmrReload
  | tmrPending | gridQ | wdg | qHead | qTail | qOverrun | wr | fHex | fKey | hist | qBuf
  deriving DecidableEq, Repr

/-- An element has the same value in both states; an array, the same element at every index. -/
def Element.same (s t : State) : Element → Prop
  | .work => t.work = s.work
  | .idleCnt => t.idleCnt = s.idleCnt
  | .fsm => t.fsm = s.fsm
  | .pos => t.pos = s.pos
  | .chgMask => t.chgMask = s.chgMask
  | .nbMask => t.nbMask = s.nbMask
  | .idleRun => t.idleRun = s.idleRun
  | .tsValid => t.tsValid = s.tsValid
  | .lastTs => t.lastTs = s.lastTs
  | .period => t.period = s.period
  | .reload => t.reload = s.reload
  | .tmrEn => t.tmrEn = s.tmrEn
  | .tmrReload => t.tmrReload = s.tmrReload
  | .tmrPending => t.tmrPending = s.tmrPending
  | .gridQ => t.gridQ = s.gridQ
  | .wdg => t.wdg = s.wdg
  | .qHead => t.qHead = s.qHead
  | .qTail => t.qTail = s.qTail
  | .qOverrun => t.qOverrun = s.qOverrun
  | .wr => t.wr = s.wr
  | .fHex => t.fHex = s.fHex
  | .fKey => t.fKey = s.fKey
  | .hist => ∀ i, readSlot t i = readSlot s i
  | .qBuf => ∀ i, readEntry t i = readEntry s i

/-- From `s` to `t` no element outside the list changes, and neither does the configuration, the trace or a handed byte. -/
def ChangesOnly (es : List Element) (s t : State) : Prop :=
  (∀ e, e ∉ es → e.same s t) ∧ t.cfg = s.cfg ∧ t.trace = s.trace ∧ t.handed = s.handed

/-- The W entries of the table of rule R135. The reset input stands outside the table and writes every element (rule
R146). -/
def mayWrite : Agent → Element → Bool
  | .calc, e => e == .gridQ
  | .timer, e => e == .tmrPending
  | .producer, e =>
    ([.work, .idleCnt, .chgMask, .nbMask, .idleRun, .fsm, .pos, .tsValid, .wr, .lastTs, .reload, .period, .qOverrun, .tmrEn,
      .tmrReload, .tmrPending, .wdg, .qHead, .qBuf, .hist] : List Element).contains e
  | .ticker, e => e == .wdg
  | .consumer, e => e == .qTail
  | .console, e => e == .fHex || e == .fKey
  | .resetInput, _ => true

/-- The R entries of the table of rule R135. -/
def mayRead : Agent → Element → Bool
  | .calc, e => e == .gridQ
  | .timer, e => e == .tmrEn || e == .tmrReload
  | .producer, e =>
    ([.work, .idleCnt, .chgMask, .nbMask, .idleRun, .fsm, .pos, .tsValid, .wr, .lastTs, .reload, .qOverrun, .tmrEn,
      .tmrReload, .tmrPending, .qHead, .qTail, .fHex, .fKey] : List Element).contains e
  | .ticker, e => e == .wdg
  | .consumer, e =>
    ([.lastTs, .reload, .period, .qOverrun, .wdg, .qHead, .qTail, .qBuf, .hist] : List Element).contains e
  | .console, _ => false
  | .resetInput, _ => false

/-- Two states that differ at most in one element of the block. -/
def DifferOnlyIn (e : Element) (s s' : State) : Prop :=
  (∀ e', e' ≠ e → e'.same s s') ∧ s'.cfg = s.cfg ∧ s'.trace = s.trace ∧ s'.handed = s.handed ∧ s'.out = s.out
    ∧ s'.draw = s.draw

/-- Two outcomes that differ at most in one element of the block: the same kind, the same reason, the same result
delivered. -/
def AgreeExcept (e : Element) : Host.Outcome State Fault Refusal → Host.Outcome State Fault Refusal → Prop
  | .next t, .next t' => (∀ e', e' ≠ e → e'.same t t') ∧ t'.out = t.out
  | .fault f, .fault f' => f' = f
  | .refused r, .refused r' => r' = r
  | _, _ => False

/-- The byte of the unread entry number `j`, 0 the oldest: `q_buf[(q_tail + j) & (QUEUE_CAP-1)]` (rule R45). -/
def unreadAt (s : State) (j : Nat) : Option Byte := readEntry s (queuePos s.cfg (s.qTail + BitVec.ofNat 8 j))

/-- The unread entries, oldest first (rule R45). -/
def unread (s : State) : List (Option Byte) := (List.range (queueCount s)).map (unreadAt s)

/-- The period an edge at `now` measures: `(now - last_ts) mod 2^32` (rule R76). -/
def measuredPeriod (now : Word) (s : State) : Word := now - s.lastTs

/-- The edge that `GRD1` carries is serviced: it is a rising edge and not masked (rules R70, R71). -/
def edgeServiced (s : State) : Prop := s.gridQ = false ∧ s.fsm ≠ .sampling

/-- The serviced edge starts a cycle: it is not the first ever and its period is not noise (rules R75, R77). -/
def edgeAccepted (now : Word) (s : State) : Prop :=
  edgeServiced s ∧ s.tsValid = true ∧ s.cfg.periodFloor.toNat ≤ (measuredPeriod now s).toNat

/-- R127's condition "Noise cycle": a serviced edge, not the first ever, whose period is below the floor. -/
def noiseEdge (now : Word) (s : State) : Prop :=
  edgeServiced s ∧ s.tsValid = true ∧ (measuredPeriod now s).toNat < s.cfg.periodFloor.toNat

/-- R127's condition "Queue/consumer lag": events have been discarded since reset (rule R35). -/
def queueLag (s : State) : Prop := s.qOverrun ≠ 0

/-- R127's condition "Watchdog timeout", a level (rule R119). -/
def watchdogTimeout (s : State) : Prop := s.cfg.wdgTimeoutTicks.toNat ≤ s.wdg.toNat

/-- Cycle-start edges at the given times, after one at `last`, all have a period that is not noise. -/
def PlausiblePeriods (c : Config) : Word → List Word → Prop
  | _, [] => True
  | last, now :: rest => c.periodFloor.toNat ≤ (now - last).toNat ∧ PlausiblePeriods c now rest

/-- `TTK` takes the last sample of a cycle: its guard holds and `pos` is 13 (rule R93). -/
def finalTick (s : State) : Prop := s.tmrEn = true ∧ s.tmrPending = true ∧ s.pos = 13

/-- The state `CLASSIFY` sees in a final `TTK`: the sample of position 13 taken (rules R93, R97). -/
def atClassify (seg : Byte) (s : State) : State := sample 13 seg s

/-- Sequencer invariants (rule R20). Clauses (c) and (d) of the rule: `ts_valid = 0` leaves only IDLE_WAIT. -/
structure SequencerInv (s : State) : Prop where
  samplingIffPos : s.fsm = .sampling ↔ 1 ≤ s.pos.val
  samplingIffEnabled : s.fsm = .sampling ↔ s.tmrEn = true
  idleBeforeFirstEdge : s.tsValid = false → s.fsm = .idleWait
  firstEdgeSeen : s.fsm = .firstEdge → s.tsValid = true

/-- Occupancy (rule R45): never more unread entries than the capacity. -/
def QueueInv (s : State) : Prop := queueCount s ≤ s.cfg.queueCap

/-- The write cursor names a slot (rule R36). -/
def CursorInv (s : State) : Prop := s.wr.toNat < s.cfg.numLines

/-- The memory is in canonical form and lists nothing outside the two index spaces (rule R41). -/
def MemoryInv (s : State) : Prop := s.mem.wf = true ∧ s.mem.inSpace s.cfg = true

/-- A byte the producer can put in the queue (rule R59), with, for a NORMAL event, its slot already written (rule R52). -/
def queuedEventOk (s : State) (b : Byte) : Prop :=
  (∃ executing, b = evt clsIdle executing 0) ∨
  (∃ executing idx, b = evt clsNormal executing idx ∧ idx.toNat < s.cfg.numLines ∧ (readSlot s idx.toNat).isSome = true)

/-- Every unread entry is written and is a byte the producer can put there (rules R52, R59). -/
def EventsInv (s : State) : Prop := ∀ j < queueCount s, ∃ b, unreadAt s j = some b ∧ queuedEventOk s b

/-- While a cycle is in progress, no mask bit of a position not yet sampled in it is set (rules R21, R22). -/
def MaskInv (s : State) : Prop :=
  s.fsm = .sampling → ∀ q : Position, s.pos ≤ q → s.chgMask.getLsbD q.val = false ∧ s.nbMask.getLsbD q.val = false

/-- While a cycle is in progress, the timer registers hold the values of rule R92's table. -/
def TimerInv (s : State) : Prop :=
  s.fsm = .sampling →
    s.cfg.periodFloor.toNat ≤ s.period.toNat
    ∧ s.reload = s.period / 14#32 - BitVec.ofNat 32 (corrections s.pos.val) * s.cfg.corrStep
    ∧ s.tmrReload = if s.pos.val = 1 then s.reload + s.cfg.firstTickExtra else s.reload

/-- All of them. -/
structure Inv (s : State) : Prop where
  sequencer : SequencerInv s
  queue : QueueInv s
  cursor : CursorInv s
  memory : MemoryInv s
  events : EventsInv s
  masks : MaskInv s
  timer : TimerInv s

/-! ## Executions and the launch premises of rule R151

An execution is given by its states and its operations: the n-th operation takes the n-th state to the next one (rule R14:
any enabled operation may be next). DESIGN CHOICE, safe (log 24). None of the premises is checked by the block; a claim that needs one names it. -/

/-- Every operation of the execution completes, in the state the one before it left. -/
def IsExecution (st : Nat → State) (op : Nat → Instr) : Prop := ∀ n, exec (op n) (st n) = .next (st (n + 1))

/-- Operation `n` is a cycle-start edge that is serviced (rules R70, R71). -/
def ServicedAt (st : Nat → State) (op : Nat → Instr) (n : Nat) : Prop :=
  (∃ now seg, op n = .grd1 now seg) ∧ edgeServiced (st n)

/-- R151(a): the state is that of rule R146. -/
def StartsAtReset (st : Nat → State) : Prop := ∀ e : Element, e.same State.reset (st 0)

/-- R151(c): no event is discarded on the execution (rule R108). -/
def NoQueueLag (st : Nat → State) : Prop := ∀ n, ¬ queueLag (st n)

/-- R151(d): `now` is drawn from a counter that advances by less than `2^32` units between consecutive serviced edges (rule
R158). `clock n` is the counter's count at operation `n`, not reduced modulo `2^32`. -/
structure ClockWithinWrap (st : Nat → State) (op : Nat → Instr) (clock : Nat → Nat) : Prop where
  drawn : ∀ n now seg, op n = .grd1 now seg → now = BitVec.ofNat 32 (clock n)
  forward : ∀ m n, m ≤ n → clock m ≤ clock n
  withinWrap : ∀ m n, m < n → ServicedAt st op m → ServicedAt st op n → (∀ j, m < j → j < n → ¬ ServicedAt st op j) →
    clock n - clock m < 2 ^ 32

/-- R151(e): the TIMER agent eventually raises `TEX` whenever `tmr_en = 1`, unless the timer is disabled first (rule R159). -/
def TimerFair (st : Nat → State) (op : Nat → Instr) : Prop :=
  ∀ n, (st n).tmrEn = true → ∃ m, n ≤ m ∧ (op m = .tex ∨ (st m).tmrEn = false)

/-- The PRODUCER eventually services a pending tick, unless it stops being enabled first. No premise of rule R151; the other
half of the fairness that 93_implementation_defined.md U11 asks of liveness claims. -/
def TickServiceFair (st : Nat → State) (op : Nat → Instr) : Prop :=
  ∀ n, ttkEnabled (st n) = true → ∃ m, n ≤ m ∧ ((∃ v, op m = .ttk v) ∨ ttkEnabled (st m) = false)

/-- Operation `p` publishes a NORMAL line in a slot (rule R100): the last `TTK` of a cycle, with `wr` at the slot. -/
def PublishesAt (st : Nat → State) (op : Nat → Instr) (p : Nat) (slot : BitVec 4) : Prop :=
  ∃ v, op p = .ttk v ∧ finalTick (st p) ∧ (atClassify v (st p)).chgMask ≠ 0 ∧ (atClassify v (st p)).nbMask ≠ 0 ∧
    (st p).wr = slot

/-- At operation `n` the consumer may read a slot (rule R111, duties 1 and 2): operation `p` published a line there and
queued its event, `POP` `m` dequeued that event, and since then the producer has not come round to the slot again. -/
structure MayReadAt (st : Nat → State) (op : Nat → Instr) (p m n : Nat) (slot : BitVec 4) : Prop where
  published : PublishesAt st op p slot
  queued : (st (p + 1)).qHead ≠ (st p).qHead
  inOrder : p < m ∧ m < n
  dequeued : op m = .pop ∧ (st m).qTail = (st p).qHead ∧
    ∃ executing, (st (m + 1)).out = .popSome (evt clsNormal executing slot)
  stillThere : ∀ j, p < j → j < n → ¬ PublishesAt st op j slot ∧ op j ≠ .rst

/-- R151(f): the consumer keeps the duties of rule R111. It reads a slot only once the slot's NORMAL event has been dequeued
(1) and before the slot is written again (2); it never writes the history, the queue storage or `q_head` (3). -/
structure ConsumerDisciplined (st : Nat → State) (op : Nat → Instr) : Prop where
  readsWhatItDequeued : ∀ n idx k, op n = .srd idx k → ∃ p m slot, slot.toNat = idx.toNat % (st n).cfg.numLines ∧
    MayReadAt st op p m n slot
  writesNothingOfTheProducer : ∀ n, .consumer ∈ (op n).agents → ∀ e ∈ [Element.hist, .qBuf, .qHead], e.same (st n) (st (n + 1))

/-- The launch premises of rule R151, together. -/
structure LaunchPremises (st : Nat → State) (op : Nat → Instr) (clock : Nat → Nat) : Prop where
  execution : IsExecution st op
  startsAtReset : StartsAtReset st
  wellFormed : (st 0).cfg.wf = true
  noQueueLag : NoQueueLag st
  clockWithinWrap : ClockWithinWrap st op clock
  timerFair : TimerFair st op
  consumerDisciplined : ConsumerDisciplined st op

end Sys2Proof.Machine
end

