-- ==== Sys2Proof/Certificates/Slice0/Obligations.lean ====
section
/-!
DEFINITION. The statements for the provers, from the numbered rules of spec/. Where a statement says "everything else is
unchanged" it says so by `ChangesOnly`, whose list names every element the operation may change (rule R15).
-/

open Sys2Proof Sys2Proof.Machine

/-! ## Taking an operation from the trace -/

/-- A step runs the decoded operation and does nothing around it (rule R14 "A step is one operation"; rule R62). With
nothing handed to the consumer, the record at the head of the trace is taken and run on the state with the rest of the
trace; a byte handed to the consumer is decoded and run on the state without it. The trace and the handed byte are the
model's own (log 1, log 2). -/
def Obligations.StepRunsTheDecodedOperation : Prop :=
  (∀ (s : State) (i : Instr) (rest : List Byte), s.handed = none → decodeStimulus s.trace = .ok (i, rest) →
    step s = exec i (setTrace rest s)) ∧
  (∀ (s : State) (i : Instr) (b : Byte), s.handed = some b → decodeEvent b = .ok i →
    step s = exec i (setHanded none s))

/-- A word of the opcode table that spells a row, placed where the step takes its next operation, is what the next step
runs, with the rest of the state and of the trace as they were. The placing is the model's own (log 1, log 2). -/
def Obligations.PlacedTableWordRunsNext : Prop :=
  ∀ (s : State) (nbits w : Nat) (i : Instr), decodeTableWord nbits w = some i →
    step (s.withFetchWord nbits w) = exec i (setHanded none s)

/-- Words written out from the encodings of rules R59, R61 to R63 decode to the operations they stand for: `GRD1 1400 0x3F`,
`TTK 0x5B`, `SRD 0 11`, `DRD 2`, `FLG 0x02`, and the event bytes `0x83` and `0x60`. -/
def Obligations.WrittenOutWordsDecodeRight : Prop :=
  decodeTableWord 48 0x3F0000057802 = some (.grd1 1400 0x3F) ∧
  decodeTableWord 16 0x5B04 = some (.ttk 0x5B) ∧
  decodeTableWord 24 0x0B0007 = some (.srd 0 11) ∧
  decodeTableWord 16 0x0209 = some (.drd 2) ∧
  decodeTableWord 16 0x020A = some (.flg 2) ∧
  decodeTableWord 8 0x83 = some (.evNormal false 3) ∧
  decodeTableWord 8 0x60 = some (.evIdle true)

/-- Decode and encode agree, forwards: every operation with every operand is read back from its record whatever follows
it, and every LineEvent from its byte. -/
def Obligations.DecodeOfEncodeIsTheRow : Prop :=
  (∀ (i : Instr) (rest : List Byte), i.space = .stimulus → decodeStimulus (encode i ++ rest) = .ok (i, rest)) ∧
  (∀ i : Instr, i.space = .lineEvent → ∃ b, encode i = [b] ∧ decodeEvent b = .ok i)

/-- Decode and encode agree, backwards: a trace that decodes begins with the record of the operation it decodes to, so
each record has one reading and each operation one record. -/
def Obligations.DecodedTraceBeginsWithTheRecord : Prop :=
  ∀ (trace : List Byte) (i : Instr) (rest : List Byte), decodeStimulus trace = .ok (i, rest) →
    i.space = .stimulus ∧ trace = encode i ++ rest ∧ (encode i).length = recordLength i

/-- The opcode bytes `0x0B` to `0xFF` spell no operation: the decoder rejects a trace that begins with one, by name, and
the step is refused. The refusal's form is the model's own (log 7). -/
def Obligations.UnknownOpcodesAreRejected : Prop :=
  ∀ (op : Byte) (rest : List Byte), 0x0B ≤ op.toNat →
    decodeStimulus (op :: rest) = .error (.unknownOpcode op) ∧
    ∀ s : State, s.handed = none → s.trace = op :: rest → step s = .refused (.unknownOpcode op)

/-- Running a trace byte by byte through the step is running its operations one after the other: no operation reads the
trace, and no record is skipped or split (rule R62; the trace is the model's own, log 1). -/
def Obligations.RunningATraceRunsItsOperations : Prop :=
  ∀ (ops : List Instr) (rest : List Byte) (s : State), (∀ i ∈ ops, i.space = .stimulus) → s.handed = none →
    Sys2Proof.core.run ops.length (setTrace (traceBytes ops ++ rest) s) = runOps ops (setTrace rest s)

/-! ## Guards: which operations have a step -/

/-- Rule R126: no operation fails. In a state whose unread events are bytes the producer can put there, an enabled
operation completes, and a disabled one has no step (it is refused by name, log 7). -/
def Obligations.EnabledOperationsCompleteAndDisabledOnesHaveNoStep : Prop :=
  ∀ (i : Instr) (s : State), EventsInv s →
    (enabled i s = true → ∃ t, exec i s = .next t) ∧
    (enabled i s = false → ∃ r, exec i s = .refused r ∧
      ((i = .tex ∧ r = .texDisabled) ∨ (∃ v, i = .ttk v ∧ r = .ttkDisabled) ∨
       (∃ idx k, i = .srd idx k ∧ 14 < k.toNat ∧ r = .srdFieldOutOfRange k) ∨
       (∃ k, i = .drd k ∧ 3 < k.toNat ∧ r = .drdWordOutOfRange k)))

/-! ## Reset -/

/-- `RST` completes in every state and puts every element at the value rule R146 gives; every element of both arrays
becomes unwritten. The reset values are the spec's decision D29. That the configuration, the trace and the handed byte, which
are no elements of the block, stay is the model's choice (log 8). -/
def Obligations.RstPutsEveryElementAtItsResetValue : Prop :=
  (∀ rest : List Byte, decodeStimulus (0x00#8 :: rest) = .ok (.rst, rest)) ∧
  ∀ s : State, ∃ t, exec .rst s = .next t ∧
    t.fsm = .idleWait ∧ t.pos = 0 ∧ t.tsValid = false ∧ t.lastTs = 0 ∧ t.period = 0 ∧ t.reload = 0 ∧
    (∀ p : Position, t.work[p.val] = 0) ∧ t.idleCnt = 0 ∧ t.chgMask = 0 ∧ t.nbMask = 0 ∧ t.idleRun = false ∧ t.wr = 0 ∧
    t.qHead = 0 ∧ t.qTail = 0 ∧ t.qOverrun = 0 ∧ t.wdg = 0 ∧ t.tmrEn = false ∧ t.tmrReload = 0 ∧ t.tmrPending = false ∧
    t.gridQ = true ∧ t.fHex = false ∧ t.fKey = false ∧ (∀ i, readSlot t i = none) ∧ (∀ i, readEntry t i = none) ∧
    t.cfg = s.cfg ∧ t.trace = s.trace ∧ t.handed = s.handed ∧ ∀ e : Element, e.same State.reset t

/-- After `RST`, from any state: the queue is empty (`POP -> None`), `WRD` gives 0, `DRD 0..3` give 0 (rule R146's
example). The reset values are the spec's decision D29. -/
def Obligations.AfterRstTheConsumerReadsNothing : Prop :=
  ∀ s t : State, exec .rst s = .next t →
    (∃ u, exec .pop t = .next u ∧ u.out = .popNone) ∧
    (∃ u x, exec .wrd t = .next u ∧ u.out = .watchdog 0 x ∧ (1 ≤ s.cfg.wdgTimeoutTicks.toNat → x = false)) ∧
    (∀ k : Byte, k.toNat ≤ 3 → ∃ u, exec (.drd k) t = .next u ∧ u.out = .word 0)

/-! ## The edge detector and the cycle-start service -/

/-- `GRD0` completes in every state, clears `grid_q` and changes nothing else. The level register is the spec's decision
D7. -/
def Obligations.Grd0ClearsTheGridLevelOnly : Prop :=
  (∀ rest : List Byte, decodeStimulus (0x01#8 :: rest) = .ok (.grd0, rest)) ∧
  ∀ s : State, ∃ t, exec .grd0 s = .next t ∧ t.gridQ = false ∧ t.out = .nothing ∧ ChangesOnly [.gridQ] s t

/-- `GRD1` with the line already high, or while `fsm = SAMPLING`, completes and sets `grid_q` only: no edge, or an edge
that is dropped. Dropping it is the spec's decision D6. -/
def Obligations.Grd1WithoutAServicedEdgeSetsTheGridLevelOnly : Prop :=
  (∀ (n0 n1 n2 n3 seg : Byte) (rest : List Byte),
    decodeStimulus (0x02#8 :: n0 :: n1 :: n2 :: n3 :: seg :: rest) = .ok (.grd1 (n3 ++ n2 ++ n1 ++ n0) seg, rest)) ∧
  ∀ (s : State) (now : Word) (seg : Byte), (s.gridQ = true ∨ s.fsm = .sampling) →
    ∃ t, exec (.grd1 now seg) s = .next t ∧ t.gridQ = true ∧ t.out = .nothing ∧ ChangesOnly [.gridQ] s t

/-- Rule R75: the first serviced edge ever records its time and exits. It writes `wdg`, `last_ts`, `ts_valid`, `fsm` (and,
as every `GRD1`, `grid_q`) and nothing else, whatever `seg` is. -/
def Obligations.FirstServicedEdgeOnlyRecordsItsTime : Prop :=
  ∀ (s : State) (now : Word) (seg : Byte), edgeServiced s → s.tsValid = false →
    ∃ t, exec (.grd1 now seg) s = .next t ∧ t.wdg = 0 ∧ t.lastTs = now ∧ t.tsValid = true ∧ t.fsm = .firstEdge ∧
      t.gridQ = true ∧ t.out = .nothing ∧ ChangesOnly [.wdg, .lastTs, .tsValid, .fsm, .gridQ] s t

/-- A later serviced edge whose period is below `PERIOD_FLOOR` is discarded: it writes `wdg`, `last_ts` and `period` (and
`grid_q`) and nothing else, `fsm` included. Updating the timestamp is the spec's decision D5, leaving `fsm` decision D4. -/
def Obligations.NoiseEdgeIsDiscarded : Prop :=
  ∀ (s : State) (now : Word) (seg : Byte), noiseEdge now s →
    ∃ t, exec (.grd1 now seg) s = .next t ∧ t.wdg = 0 ∧ t.lastTs = now ∧
      t.period.toNat = (now.toNat + 2 ^ 32 - s.lastTs.toNat) % 2 ^ 32 ∧
      t.gridQ = true ∧ t.out = .nothing ∧ ChangesOnly [.wdg, .lastTs, .period, .gridQ] s t

/-- A later serviced edge whose period is at least `PERIOD_FLOOR`, equality included, starts a cycle, whatever its period
(rule R84: no upper bound): the period is the time since the last serviced edge modulo `2^32`, the reload its fourteenth
part rounded down, the timer is programmed with the reload plus the first-tick extra and its stale pending flag cleared,
the masks hold position 0's bits alone, position 0 is sampled. That `period` and `reload` have one unit is the spec's
decision D1. -/
def Obligations.AcceptedEdgeStartsACycle : Prop :=
  ∀ (s : State) (now : Word) (seg : Byte), edgeAccepted now s →
    ∃ t, exec (.grd1 now seg) s = .next t ∧ t.wdg = 0 ∧ t.lastTs = now ∧
      t.period.toNat = (now.toNat + 2 ^ 32 - s.lastTs.toNat) % 2 ^ 32 ∧
      t.reload.toNat = t.period.toNat / 14 ∧
      t.tmrReload.toNat = (t.reload.toNat + s.cfg.firstTickExtra.toNat) % 2 ^ 32 ∧ t.tmrPending = false ∧
      t.chgMask = (if seg = s.work[0] then 0 else 1) ∧ t.nbMask = (if seg = 0 then 0 else 1) ∧
      t.work = s.work.set 0 seg ∧ t.pos = 1 ∧ t.tmrEn = true ∧ t.fsm = .sampling ∧ t.gridQ = true ∧ t.out = .nothing ∧
      ChangesOnly [.wdg, .lastTs, .period, .reload, .tmrReload, .tmrPending, .chgMask, .nbMask, .work, .pos, .tmrEn, .fsm,
        .gridQ] s t

/-- Rule R74: every serviced edge, the first ever, a noise edge and an accepted one alike, sets `wdg` to 0; a masked edge
leaves it. -/
def Obligations.EveryServicedEdgeZeroesTheWatchdog : Prop :=
  ∀ (s : State) (now : Word) (seg : Byte), ∃ t, exec (.grd1 now seg) s = .next t ∧
    (edgeServiced s → t.wdg = 0) ∧ (s.gridQ = false → s.fsm = .sampling → t.wdg = s.wdg)

/-- Rule R79: after an accepted edge the timer holds `(reload + FIRST_TICK_EXTRA) mod 2^32` and `reload` holds `period / 14`
without the extra; the service of the first tick, position 1, re-programs the timer with the plain `reload`. -/
def Obligations.FirstTickExtraIsInTheTimerOnly : Prop :=
  ∀ (s : State) (now : Word) (seg : Byte), edgeAccepted now s →
    ∃ t, exec (.grd1 now seg) s = .next t ∧ t.reload = t.period / 14#32 ∧
      t.tmrReload = t.reload + s.cfg.firstTickExtra ∧
      ∀ v : Byte, ∃ u w, exec .tex t = .next u ∧ exec (.ttk v) u = .next w ∧ w.reload = t.reload ∧
        w.tmrReload = t.reload ∧ w.pos = 2

/-! ## The sampler, the timer tick and the sequencer -/

/-- What `SAMPLE` does to the masks and the working line: bit `p` is set where position `p` takes part and the value
changed (or is not 0), no other bit moves, and the value is stored always. Digit positions always take part, virtual-key
positions when a console flag is on (for blank detection also under `VK_NONBLANK_ALWAYS`). The gating is the spec's
decisions D13 and D14, the storing D15. -/
def Obligations.SampleFoldsTheMasksAndStores : Prop :=
  ∀ (s : State) (p q : Position) (v : Byte),
    ((sample p v s).chgMask.getLsbD q.val = true ↔
      s.chgMask.getLsbD q.val = true ∨ (q = p ∧ v ≠ s.work[p.val] ∧ (p.val ≤ 11 ∨ s.fHex = true ∨ s.fKey = true))) ∧
    ((sample p v s).nbMask.getLsbD q.val = true ↔
      s.nbMask.getLsbD q.val = true ∨
        (q = p ∧ v ≠ 0 ∧ (p.val ≤ 11 ∨ s.fHex = true ∨ s.fKey = true ∨ s.cfg.vkNonblankAlways = true))) ∧
    (sample p v s).work[q.val] = (if q = p then v else s.work[q.val]) ∧
    ChangesOnly [.chgMask, .nbMask, .work] s (sample p v s)

/-- `TEX` completes exactly while the timer is enabled, sets the pending flag and changes nothing else; with the timer
disabled it has no step. The separate expiry step is the spec's decision D10. -/
def Obligations.TexSetsThePendingFlag : Prop :=
  (∀ rest : List Byte, decodeStimulus (0x03#8 :: rest) = .ok (.tex, rest)) ∧
  ∀ s : State,
    (s.tmrEn = true → ∃ t, exec .tex s = .next t ∧ t.tmrPending = true ∧ t.out = .nothing ∧
      ChangesOnly [.tmrPending] s t) ∧
    (s.tmrEn = false → exec .tex s = .refused .texDisabled)

/-- `TTK` before the last position: it samples position `pos`, corrects the live reload at positions 3, 7 and 11,
re-programs the timer with it, clears the pending flag and moves on by one. -/
def Obligations.TickServiceTakesTheNextSample : Prop :=
  (∀ (v : Byte) (rest : List Byte), decodeStimulus (0x04#8 :: v :: rest) = .ok (.ttk v, rest)) ∧
  ∀ (s : State) (v : Byte), s.tmrEn = true → s.tmrPending = true → s.pos.val < 13 →
    ∃ t, exec (.ttk v) s = .next t ∧
      t.work = (sample s.pos v s).work ∧ t.chgMask = (sample s.pos v s).chgMask ∧
      t.nbMask = (sample s.pos v s).nbMask ∧
      t.reload.toNat = (if s.pos.val ∈ [3, 7, 11] then (s.reload.toNat + 2 ^ 32 - s.cfg.corrStep.toNat) % 2 ^ 32
        else s.reload.toNat) ∧
      t.tmrReload = t.reload ∧ t.tmrPending = false ∧ t.pos.val = s.pos.val + 1 ∧ t.out = .nothing ∧
      ChangesOnly [.work, .chgMask, .nbMask, .reload, .tmrReload, .tmrPending, .pos] s t

/-- `TTK` at position 13: it samples, disables the timer, sets `pos` to 0, classifies and goes to IDLE_WAIT; it applies no
correction, does not re-program the timer and leaves the pending flag at 1. Not acknowledging the flag is the spec's
decision D9. -/
def Obligations.FinalTickEndsTheCycle : Prop :=
  ∀ (s : State) (v : Byte), finalTick s →
    ∃ t, exec (.ttk v) s = .next t ∧
      t.work = s.work.set 13 v ∧ t.chgMask = (atClassify v s).chgMask ∧ t.nbMask = (atClassify v s).nbMask ∧
      t.tmrEn = false ∧ t.pos = 0 ∧ t.fsm = .idleWait ∧ t.tmrPending = true ∧ t.out = .nothing ∧
      ChangesOnly [.work, .chgMask, .nbMask, .tmrEn, .pos, .fsm, .idleCnt, .idleRun, .wr, .hist, .qBuf, .qHead,
        .qOverrun] s t

/-! ## Classification and publication -/

/-- NORMAL (some position changed and some is non-blank): the slot at `wr` receives the working line with the sign byte
masked and the idle counter as it stood, every other slot is untouched; the cursor advances by one modulo `NUM_LINES`; the
idle counter and the blank-run flag are cleared. With room in the queue the byte `0x80 | exec << 5 | wr` is queued; with
the queue full the event is discarded and counted and the rest still happens (the spec's decision D24). -/
def Obligations.NormalLineIsPublished : Prop :=
  ∀ (s : State) (v : Byte), finalTick s → (atClassify v s).chgMask ≠ 0 → (atClassify v s).nbMask ≠ 0 →
    ∃ t line, exec (.ttk v) s = .next t ∧
      readSlot t s.wr.toNat = some line ∧ line.idle = s.idleCnt ∧
      (∀ k : Position, line.seg[k.val] = if k = s.cfg.signPos then (atClassify v s).work[k.val] &&& s.cfg.signKeep
        else (atClassify v s).work[k.val]) ∧
      (∀ j, j ≠ s.wr.toNat → readSlot t j = readSlot s j) ∧
      t.wr.toNat = (s.wr.toNat + 1) % s.cfg.numLines ∧ t.idleCnt = 0 ∧ t.idleRun = false ∧
      (queueCount s ≠ s.cfg.queueCap → t.qHead = s.qHead + 1 ∧ t.qOverrun = s.qOverrun ∧
        (∃ b, readEntry t (queuePos s.cfg s.qHead) = some b ∧
          b.toNat = 0x80 + (if (atClassify v s).work[s.cfg.execPos.val] = s.cfg.execSentinel then 0x20 else 0)
            + s.wr.toNat) ∧
        ∀ j, j ≠ queuePos s.cfg s.qHead → readEntry t j = readEntry s j) ∧
      (queueCount s = s.cfg.queueCap → t.qHead = s.qHead ∧ t.qOverrun.toNat = min (s.qOverrun.toNat + 1) 0xFFFF ∧
        ∀ j, readEntry t j = readEntry s j)

/-- BLANK (no position is non-blank, whatever changed): the first blank cycle of a run queues the byte `0x40 | exec << 5`
(or, with the queue full, counts it) and sets the run flag; each later one adds one to the idle counter modulo `2^16` and
queues nothing. History and cursor are untouched. The wrap is the spec's decision D19, the discard D23. -/
def Obligations.BlankLineIsReportedOnceAndCounted : Prop :=
  ∀ (s : State) (v : Byte), finalTick s → (atClassify v s).nbMask = 0 →
    ∃ t, exec (.ttk v) s = .next t ∧ t.idleRun = true ∧ t.wr = s.wr ∧ (∀ j, readSlot t j = readSlot s j) ∧
      (s.idleRun = true → t.idleCnt.toNat = (s.idleCnt.toNat + 1) % 2 ^ 16 ∧ t.qHead = s.qHead ∧
        t.qOverrun = s.qOverrun ∧ ∀ j, readEntry t j = readEntry s j) ∧
      (s.idleRun = false → t.idleCnt = s.idleCnt ∧
        (queueCount s ≠ s.cfg.queueCap → t.qHead = s.qHead + 1 ∧ t.qOverrun = s.qOverrun ∧
          (∃ b, readEntry t (queuePos s.cfg s.qHead) = some b ∧
            b.toNat = 0x40 + (if (atClassify v s).work[s.cfg.execPos.val] = s.cfg.execSentinel then 0x20 else 0)) ∧
          ∀ j, j ≠ queuePos s.cfg s.qHead → readEntry t j = readEntry s j) ∧
        (queueCount s = s.cfg.queueCap → t.qHead = s.qHead ∧ t.qOverrun.toNat = min (s.qOverrun.toNat + 1) 0xFFFF ∧
          ∀ j, readEntry t j = readEntry s j))

/-- UNCHANGED (some position is non-blank, none changed): nothing is written and no event is queued; only the cycle ends.
Leaving the run flag alone is the spec's decision D18. -/
def Obligations.UnchangedLineQueuesNothing : Prop :=
  ∀ (s : State) (v : Byte), finalTick s → (atClassify v s).chgMask = 0 → (atClassify v s).nbMask ≠ 0 →
    ∃ t, exec (.ttk v) s = .next t ∧ ChangesOnly [.work, .chgMask, .nbMask, .tmrEn, .pos, .fsm] s t

/-- Rule R98: the execution bit (bit 5) of the event a cycle queues is 1 exactly when the designated virtual-key position
holds the sentinel at the time of classification, on NORMAL and IDLE events alike, whatever the flags and masks. -/
def Obligations.ExecBitMarksTheSentinel : Prop :=
  ∀ (s t : State) (v : Byte), finalTick s → exec (.ttk v) s = .next t → t.qHead ≠ s.qHead →
    ∃ b, readEntry t (queuePos s.cfg s.qHead) = some b ∧
      (b.getLsbD 5 = true ↔ t.work[s.cfg.execPos.val] = s.cfg.execSentinel)

/-! ## The queue -/

/-- Rule R107: `PUSH` writes the byte at `q_head & (QUEUE_CAP - 1)` and advances `q_head` modulo 256, or, when the count is
`QUEUE_CAP`, only adds one to `q_overrun`, saturating. It never writes `q_tail`. It runs only inside `CLASSIFY`: apart from
`RST`, only the last `TTK` of a cycle changes what it writes. -/
def Obligations.PushAppendsOrCounts : Prop :=
  (∀ (s : State) (b : Byte),
    ((s.qHead.toNat + 256 - s.qTail.toNat) % 256 = s.cfg.queueCap →
      (push b s).qOverrun.toNat = min (s.qOverrun.toNat + 1) (2 ^ 16 - 1) ∧ ChangesOnly [.qOverrun] s (push b s)) ∧
    ((s.qHead.toNat + 256 - s.qTail.toNat) % 256 ≠ s.cfg.queueCap →
      readEntry (push b s) (s.qHead.toNat % s.cfg.queueCap) = some b ∧
      (∀ j, j ≠ s.qHead.toNat % s.cfg.queueCap → readEntry (push b s) j = readEntry s j) ∧
      (push b s).qHead.toNat = (s.qHead.toNat + 1) % 256 ∧ ChangesOnly [.qBuf, .qHead] s (push b s))) ∧
  (∀ (i : Instr) (s t : State), exec i s = .next t → i ≠ .rst →
    (t.qHead ≠ s.qHead ∨ t.qOverrun ≠ s.qOverrun ∨ ∃ j, readEntry t j ≠ readEntry s j) →
    ∃ v, i = .ttk v ∧ finalTick s)

/-- `POP` on an empty queue completes with None and changes nothing. On a non-empty queue whose oldest unread entry holds
an event byte it completes with that byte and advances `q_tail` only. -/
def Obligations.PopDeliversTheOldestEvent : Prop :=
  (∀ rest : List Byte, decodeStimulus (0x06#8 :: rest) = .ok (.pop, rest)) ∧
  (∀ s : State, s.qHead = s.qTail → ∃ t, exec .pop s = .next t ∧ t.out = .popNone ∧ ChangesOnly [] s t) ∧
  (∀ (s : State) (b : Byte), s.qHead ≠ s.qTail → readEntry s (s.qTail.toNat % s.cfg.queueCap) = some b →
    (b.toNat / 64 = 1 ∨ b.toNat / 64 = 2) →
    ∃ t, exec .pop s = .next t ∧ t.out = .popSome b ∧ t.qTail.toNat = (s.qTail.toNat + 1) % 256 ∧
      ChangesOnly [.qTail] s t)

/-- A byte of a reserved class is a fault of the run, never a value: popped from the queue, or handed to the consumer's
decoder. That it is a fault is the spec's decision D32. -/
def Obligations.ReservedEventClassIsAFault : Prop :=
  ∀ (s : State) (b : Byte), (b.toNat / 64 = 0 ∨ b.toNat / 64 = 3) →
    (s.qHead ≠ s.qTail → readEntry s (s.qTail.toNat % s.cfg.queueCap) = some b →
      exec .pop s = .fault (.reservedEvent b)) ∧
    (s.handed = some b → step s = .fault (.reservedEvent b))

/-- The queue is first in, first out: pushing with room appends one entry to the unread entries, pushing without room and
popping an empty queue leave them, popping takes the oldest and leaves the others in order. Dropping the newest event is
the spec's decision D23, the index scheme D22. -/
def Obligations.QueueIsFirstInFirstOut : Prop :=
  ∀ s : State, QueueInv s →
    (∀ b : Byte, unread (push b s) = if queueCount s < s.cfg.queueCap then unread s ++ [some b] else unread s) ∧
    (∀ t : State, exec .pop s = .next t →
      (unread s = [] ∧ t.out = .popNone ∧ unread t = []) ∨
      (∃ b rest, unread s = b :: rest ∧ unread t = rest ∧ (∀ x, b = some x → t.out = .popSome x)))

/-- The physical positions of consecutive queue indices follow each other around the buffer without a jump, the wrap of the
8-bit index from 255 to 0 included. The index representation is the spec's decision D22. -/
def Obligations.QueuePositionsWrapWithoutAJump : Prop :=
  ∀ (c : Config) (i : Byte), queuePos c i < c.queueCap ∧ queuePos c (i + 1) = (queuePos c i + 1) % c.queueCap

/-! ## The consumer's reads, the watchdog, the diagnostic words, the flags -/

/-- `SRD idx k` completes for every `k ≤ 14` in every state and changes nothing: on a written slot it delivers the
zero-extended segment byte (`k ≤ 13`) or the idle counter (`k = 14`) of slot `idx mod NUM_LINES`; on a slot nothing has
written, a value of the field's width that is otherwise free (log 5). For `k > 14` it has no step. The index reduction is
the spec's decision D33, field-wise reading D28. -/
def Obligations.SrdReadsOneFieldOfASlot : Prop :=
  (∀ (idx k : Byte) (rest : List Byte), decodeStimulus (0x07#8 :: idx :: k :: rest) = .ok (.srd idx k, rest)) ∧
  ∀ (s : State) (idx k : Byte),
    (k.toNat ≤ 14 → ∃ t x, exec (.srd idx k) s = .next t ∧ t.out = .field x ∧ ChangesOnly [] s t ∧
      (k.toNat ≤ 13 → x.toNat < 256) ∧
      ∀ line, readSlot s (idx.toNat % s.cfg.numLines) = some line →
        (∀ h : k.toNat < 14, x.toNat = (line.seg[k.toNat]).toNat) ∧ (k.toNat = 14 → x = line.idle)) ∧
    (14 < k.toNat → exec (.srd idx k) s = .refused (.srdFieldOutOfRange k))

/-- `SRD`, `WRD` and `DRD` change no element, and repeating one delivers the same result again, on an unwritten slot too;
`POP` is the only read with a side effect, on `q_tail` alone; no operation of the consumer writes `hist`. -/
def Obligations.ReadsAreIdempotent : Prop :=
  (∀ (i : Instr) (s t : State), (i = .wrd ∨ (∃ idx k, i = .srd idx k) ∨ ∃ k, i = .drd k) → exec i s = .next t →
    ChangesOnly [] s t ∧ exec i t = .next t) ∧
  (∀ s t : State, exec .pop s = .next t → ChangesOnly [.qTail] s t)

/-- Rule R118: `WRD` completes in every state, delivers the counter and whether it is at least `WDG_TIMEOUT_TICKS`, and
changes nothing. -/
def Obligations.WrdReadsTheWatchdog : Prop :=
  (∀ rest : List Byte, decodeStimulus (0x08#8 :: rest) = .ok (.wrd, rest)) ∧
  ∀ s : State, ∃ t, exec .wrd s = .next t ∧ ChangesOnly [] s t ∧
    t.out = .watchdog s.wdg (decide (s.cfg.wdgTimeoutTicks.toNat ≤ s.wdg.toNat))

/-- `MST` completes in every state, adds one to `wdg` up to `2^32 - 1` and changes nothing else. Saturation is the spec's
decision D25. -/
def Obligations.MstCountsUpAndSaturates : Prop :=
  (∀ rest : List Byte, decodeStimulus (0x05#8 :: rest) = .ok (.mst, rest)) ∧
  ∀ s : State, ∃ t, exec .mst s = .next t ∧ t.wdg.toNat = min (s.wdg.toNat + 1) (2 ^ 32 - 1) ∧ t.out = .nothing ∧
    ChangesOnly [.wdg] s t

/-- Rule R119: the timeout is a level, delivered by `WRD`. It begins at the `MST` that takes `wdg` to `WDG_TIMEOUT_TICKS`, it
stays through every later `MST`, and the next serviced edge ends it. The `MST` queues nothing and does not touch the
sequencer. -/
def Obligations.WatchdogTimeoutIsALevel : Prop :=
  ∀ s : State, 1 ≤ s.cfg.wdgTimeoutTicks.toNat →
    (∃ t x, exec .wrd s = .next t ∧ t.out = .watchdog s.wdg x ∧ (x = true ↔ watchdogTimeout s)) ∧
    (∃ t, exec .mst s = .next t ∧ ChangesOnly [.wdg] s t ∧ (watchdogTimeout s → watchdogTimeout t) ∧
      (¬ watchdogTimeout s → (watchdogTimeout t ↔ s.wdg.toNat + 1 = s.cfg.wdgTimeoutTicks.toNat))) ∧
    ∀ (now : Word) (seg : Byte), edgeServiced s → ∃ t, exec (.grd1 now seg) s = .next t ∧ ¬ watchdogTimeout t

/-- `MST` is the only operation that increases `wdg`, and the only ones that decrease it are a serviced cycle-start edge
and `RST`, to 0. -/
def Obligations.OnlyTicksRaiseTheWatchdogAndOnlyEdgesZeroIt : Prop :=
  ∀ (i : Instr) (s t : State), exec i s = .next t →
    (s.wdg.toNat < t.wdg.toNat → i = .mst) ∧
    (t.wdg.toNat < s.wdg.toNat → t.wdg = 0 ∧ (i = .rst ∨ ∃ now seg, i = .grd1 now seg ∧ edgeServiced s))

/-- `DRD k` completes for every `k ≤ 3`, delivers `last_ts`, `period`, `reload` or the zero-extended overrun counter, and
changes nothing; for `k > 3` it has no step. Word 3 is the spec's decision D23. -/
def Obligations.DrdReadsOneWord : Prop :=
  (∀ (k : Byte) (rest : List Byte), decodeStimulus (0x09#8 :: k :: rest) = .ok (.drd k, rest)) ∧
  ∀ (s : State) (k : Byte),
    (k.toNat ≤ 3 → ∃ t x, exec (.drd k) s = .next t ∧ t.out = .word x ∧ ChangesOnly [] s t ∧
      (k.toNat = 0 → x = s.lastTs) ∧ (k.toNat = 1 → x = s.period) ∧ (k.toNat = 2 → x = s.reload) ∧
      (k.toNat = 3 → x.toNat = s.qOverrun.toNat)) ∧
    (3 < k.toNat → exec (.drd k) s = .refused (.drdWordOutOfRange k))

/-- `FLG f` completes in every state and sets `f_hex` to bit 0 and `f_key` to bit 1 of its operand, ignoring the other six,
and changes nothing else. -/
def Obligations.FlgSetsTheTwoFlags : Prop :=
  (∀ (f : Byte) (rest : List Byte), decodeStimulus (0x0A#8 :: f :: rest) = .ok (.flg f, rest)) ∧
  ∀ (s : State) (f : Byte), ∃ t, exec (.flg f) s = .next t ∧
    (t.fHex = true ↔ f.toNat % 2 = 1) ∧ (t.fKey = true ↔ f.toNat / 2 % 2 = 1) ∧ t.out = .nothing ∧
    ChangesOnly [.fHex, .fKey] s t

/-- The consumer's decoding of a LineEvent byte: class `0b10` is Normal with slot `b[3:0]` and flag `b[5]`, class `0b01` is
Idle with flag `b[5]` and its low bits ignored; bit 4 is ignored in both; the decoding completes in every state and changes
nothing. That it is run as an instruction is the model's choice (log 2); the layout is the spec's decision D20. -/
def Obligations.ConsumerDecodesTheEventByte : Prop :=
  ∀ (s : State) (b : Byte),
    (b.toNat / 64 = 2 → ∃ i t, decodeEvent b = .ok i ∧ exec i s = .next t ∧ ChangesOnly [] s t ∧
      ∃ slot executing, t.out = .event (.normal slot executing) ∧ i = .evNormal executing slot ∧
        slot.toNat = b.toNat % 16 ∧ (executing = true ↔ b.toNat / 32 % 2 = 1)) ∧
    (b.toNat / 64 = 1 → ∃ i t, decodeEvent b = .ok i ∧ exec i s = .next t ∧ ChangesOnly [] s t ∧
      ∃ executing, t.out = .event (.idle executing) ∧ i = .evIdle executing ∧
        (executing = true ↔ b.toNat / 32 % 2 = 1))

/-- `EV_NORMAL` and `EV_IDLE` complete in every state for every operand, deliver the decoded event and change nothing (the
model's choice, log 2). -/
def Obligations.EventRowsDeliverTheDecodedEvent : Prop :=
  ∀ (s : State) (executing : Bool) (idx : BitVec 4),
    (∃ t, exec (.evNormal executing idx) s = .next t ∧ t.out = .event (.normal idx executing) ∧ ChangesOnly [] s t) ∧
    (∃ t, exec (.evIdle executing) s = .next t ∧ t.out = .event (.idle executing) ∧ ChangesOnly [] s t)

/-- Rule R59: the constructor gives `(cls << 6) | (exec << 5) | idx`, and a byte that any operation writes to the queue is a
NORMAL event with the write cursor as its slot or an IDLE event with slot bits 0: `0x40`, `0x60`, or in `0x80..0x8F` or
`0xA0..0xAF`. -/
def Obligations.ProducerEmitsOnlyTheFourRanges : Prop :=
  (∀ (cls : BitVec 2) (executing : Bool) (idx : BitVec 4),
    (evt cls executing idx).toNat = cls.toNat * 64 + executing.toNat * 32 + idx.toNat) ∧
  ∀ (i : Instr) (s t : State) (j : Nat) (b : Byte), exec i s = .next t → readEntry t j = some b →
    readEntry s j ≠ some b →
    (∃ executing, b = evt clsNormal executing s.wr ∨ b = evt clsIdle executing 0) ∧
    (b.toNat = 0x40 ∨ b.toNat = 0x60 ∨ (0x80 ≤ b.toNat ∧ b.toNat ≤ 0x8F) ∨ (0xA0 ≤ b.toNat ∧ b.toNat ≤ 0xAF))

/-! ## Rules about the whole machine -/

/-- Rule R135: the access table. No operation of a context changes an element its contexts may not write, nor the
configuration; and what it does to the other elements, its result and whether it completes do not depend on an element its
contexts may not read. The finer entries: TIMER only sets the pending flag, PRODUCER only clears it; PRODUCER only zeroes
the watchdog, TICKER only increments it. The LineEvent rows, counted to the consumer, are the model's choice (log 2); a `GRD1`
has the rights of CALC and PRODUCER together, and without a serviced edge it touches `grid_q` only
(`Grd1WithoutAServicedEdgeSetsTheGridLevelOnly`). -/
def Obligations.AccessRightsAreRespected : Prop :=
  (∀ (i : Instr) (s t : State) (e : Element), exec i s = .next t → (∀ a ∈ i.agents, mayWrite a e = false) →
    e.same s t ∧ t.cfg = s.cfg) ∧
  (∀ (i : Instr) (s s' : State) (e : Element), (∀ a ∈ i.agents, mayRead a e = false) → DifferOnlyIn e s s' →
    AgreeExcept e (exec i s) (exec i s')) ∧
  (∀ (i : Instr) (s t : State), exec i s = .next t →
    (.timer ∈ i.agents → t.tmrPending = true) ∧
    (.producer ∈ i.agents → t.tmrPending = s.tmrPending ∨ t.tmrPending = false) ∧
    (.producer ∈ i.agents → t.wdg = s.wdg ∨ t.wdg = 0) ∧
    (.ticker ∈ i.agents → t.wdg.toNat = min (s.wdg.toNat + 1) (2 ^ 32 - 1)))

/-- The sequencer moves only along the transitions rule R18 lists: to FIRST_EDGE on the first serviced edge ever, to
SAMPLING on an accepted edge, to IDLE_WAIT after the 14th sample; and by `RST` to IDLE_WAIT. -/
def Obligations.SequencerMovesOnlyAlongTheListedTransitions : Prop :=
  ∀ (i : Instr) (s t : State), SequencerInv s → exec i s = .next t → t.fsm ≠ s.fsm →
    (s.fsm = .idleWait ∧ t.fsm = .firstEdge ∧ s.tsValid = false ∧ ∃ now seg, i = .grd1 now seg ∧ edgeServiced s) ∨
    (s.fsm ≠ .sampling ∧ t.fsm = .sampling ∧ ∃ now seg, i = .grd1 now seg ∧ edgeAccepted now s) ∨
    (s.fsm = .sampling ∧ t.fsm = .idleWait ∧ ∃ v, i = .ttk v ∧ finalTick s) ∨
    (t.fsm = .idleWait ∧ i = .rst)

/-- A pending tick is cleared only by a `TIMER.set_period` (an accepted edge or a tick service before the last position)
and by `RST`; neither the entry to the service nor `TIMER.disable` clears it (the spec's decisions D9, D10). -/
def Obligations.OnlySetPeriodClearsAPendingTick : Prop :=
  ∀ (i : Instr) (s t : State), exec i s = .next t → s.tmrPending = true → t.tmrPending = false →
    i = .rst ∨ (∃ now seg, i = .grd1 now seg ∧ edgeAccepted now s) ∨
    (∃ v, i = .ttk v ∧ s.tmrEn = true ∧ s.pos.val < 13)

/-- A history slot changes only where a NORMAL line is published: in the last `TTK` of a cycle, at `wr`, with the cursor
advancing; or by `RST`. The overrun counter never goes down except by `RST`. -/
def Obligations.OnlyNormalLinesWriteHistory : Prop :=
  ∀ (i : Instr) (s t : State), exec i s = .next t → i ≠ .rst →
    (∀ j, readSlot t j ≠ readSlot s j → j = s.wr.toNat ∧ (∃ v, i = .ttk v ∧ finalTick s) ∧
      t.wr.toNat = (s.wr.toNat + 1) % s.cfg.numLines ∧ t.chgMask ≠ 0 ∧ t.nbMask ≠ 0) ∧
    s.qOverrun.toNat ≤ t.qOverrun.toNat

/-! ## Invariants -/

/-- The state after reset meets every invariant. -/
def Obligations.ResetMeetsTheInvariants : Prop := Inv State.reset

/-- The sequencer invariants of rule R20, from every state that meets them: SAMPLING exactly while `1 ≤ pos ≤ 13`, exactly
while the timer is enabled; only IDLE_WAIT before the first serviced edge; FIRST_EDGE only after it. -/
def Obligations.StepKeepsTheSequencerInvariant : Prop :=
  ∀ s t : State, SequencerInv s → step s = .next t → SequencerInv t

/-- The occupancy invariant of rule R45: never more unread entries than `QUEUE_CAP`. -/
def Obligations.StepKeepsTheQueueWithinItsCapacity : Prop :=
  ∀ s t : State, QueueInv s → step s = .next t → QueueInv t

/-- Memory keeps its canonical form and stays inside the two index spaces, and the write cursor names a slot (rules R36,
R41). -/
def Obligations.StepKeepsTheMemoryCanonical : Prop :=
  ∀ s t : State, CursorInv s → MemoryInv s → step s = .next t → CursorInv t ∧ MemoryInv t

/-- Every unread event is a written byte of a form the producer makes, and a NORMAL one names a slot already written
(rules R52, R59). -/
def Obligations.StepKeepsQueuedEventsPublished : Prop :=
  ∀ s t : State, QueueInv s → CursorInv s → EventsInv s → step s = .next t → EventsInv t

/-- During a cycle no mask bit of a position not yet sampled is set, and the timer registers hold the values of rule R92's
table. The table is derived in the spec from rules R72, R89 and R91. -/
def Obligations.StepKeepsTheCycleRegisters : Prop :=
  ∀ s t : State, SequencerInv s → MaskInv s → TimerInv s → step s = .next t → MaskInv t ∧ TimerInv t

/-- All invariants together, and with them: a step from a state that meets them never faults unless a reserved byte was
handed in from outside. That the reserved class is never popped is 93_implementation_defined.md U1. -/
def Obligations.InvariantStatesNeverFault : Prop :=
  ∀ s : State, Inv s → (∀ t, step s = .next t → Inv t) ∧ (s.handed = none → ∀ f, step s ≠ .fault f)

/-- On a well-formed configuration the live reload never wraps during a cycle: it stays at least 1, and equals the period's
fourteenth less the corrections as plain numbers. The well-formedness condition is the spec's decision D11. -/
def Obligations.CorrectionsNeverWrapOnWellFormedConfigurations : Prop :=
  ∀ s : State, s.cfg.wf = true → TimerInv s → s.fsm = .sampling →
    1 ≤ s.reload.toNat ∧
    s.reload.toNat + corrections s.pos.val * s.cfg.corrStep.toNat = s.period.toNat / 14

/-! ## Whole cycles -/

/-- One whole accepted cycle, `CYCLE now s0 … s13` from a state with no cycle in progress: it completes, every position
holds its sample, the masks hold exactly the positions that took part and changed (were non-blank), the sequencer is back
in IDLE_WAIT, the reload has had its three corrections, and the line has been classified exactly once, with the outcome the
masks decide. -/
def Obligations.WholeCycleSamplesFourteenPositionsAndClassifiesOnce : Prop :=
  ∀ (s : State) (now : Word) (segs : Vector Byte 14), s.fsm ≠ .sampling → s.tsValid = true →
    s.cfg.periodFloor.toNat ≤ (measuredPeriod now s).toNat →
    ∃ t, runOps (expand (.cycle now segs)) s = .next t ∧
      t.fsm = .idleWait ∧ t.pos = 0 ∧ t.tmrEn = false ∧ t.tmrPending = true ∧ t.wdg = 0 ∧ t.lastTs = now ∧
      t.tsValid = true ∧ t.period = measuredPeriod now s ∧ t.reload = t.period / 14#32 - 3#32 * s.cfg.corrStep ∧
      t.tmrReload = t.reload ∧ t.work = segs ∧ t.cfg = s.cfg ∧ t.fHex = s.fHex ∧ t.fKey = s.fKey ∧ t.qTail = s.qTail ∧
      (∀ p : Position, t.chgMask.getLsbD p.val = (partChg s p && (segs[p.val] != s.work[p.val]))) ∧
      (∀ p : Position, t.nbMask.getLsbD p.val = (partNb s p && (segs[p.val] != 0))) ∧
      (t.chgMask ≠ 0 ∧ t.nbMask ≠ 0 → t.wr = nextSlot s.cfg s.wr ∧ t.idleCnt = 0 ∧ t.idleRun = false) ∧
      (t.nbMask = 0 → t.wr = s.wr ∧ t.idleRun = true ∧
        t.idleCnt = if s.idleRun then s.idleCnt + 1 else s.idleCnt) ∧
      (t.chgMask = 0 ∧ t.nbMask ≠ 0 → t.wr = s.wr ∧ t.idleRun = s.idleRun ∧ t.idleCnt = s.idleCnt ∧ t.qHead = s.qHead ∧
        t.qOverrun = s.qOverrun)

/-- A run of `k ≥ 1` all-zero cycles, from a state with no cycle in progress, no blank run and room in the queue: exactly
one event, an IDLE event, is queued, the history is untouched, and the idle counter ends `k - 1` above where it began,
modulo `2^16` (the source's third scenario, T9). -/
def Obligations.BlankRunQueuesOneIdleEventAndCountsTheRest : Prop :=
  ∀ (s : State) (first : Word) (later : List Word), s.fsm ≠ .sampling → s.tsValid = true → s.idleRun = false →
    queueCount s ≠ s.cfg.queueCap → PlausiblePeriods s.cfg s.lastTs (first :: later) →
    ∃ t, runOps ((first :: later).flatMap fun now => expand (.cycle now (Vector.replicate 14 0))) s = .next t ∧
      t.idleRun = true ∧ t.idleCnt = s.idleCnt + BitVec.ofNat 16 later.length ∧ t.wr = s.wr ∧
      (∀ j, readSlot t j = readSlot s j) ∧ t.qHead = s.qHead + 1 ∧ t.qOverrun = s.qOverrun ∧
      readEntry t (queuePos s.cfg s.qHead) = some (evt clsIdle (decide (s.cfg.execSentinel = 0)) 0)

/-- Two consecutive cycles with the same samples, some digit sample non-zero: the second publishes nothing, so no event, no
slot, no cursor and no counter moves (the source's second scenario, T8). -/
def Obligations.RepeatedLineQueuesNothing : Prop :=
  ∀ (s t1 t2 : State) (now1 now2 : Word) (segs : Vector Byte 14), s.fsm ≠ .sampling → s.tsValid = true →
    PlausiblePeriods s.cfg s.lastTs [now1, now2] → (∃ p : Position, p.val ≤ 11 ∧ segs[p.val] ≠ 0) →
    runOps (expand (.cycle now1 segs)) s = .next t1 → runOps (expand (.cycle now2 segs)) t1 = .next t2 →
    t2.qHead = t1.qHead ∧ t2.qOverrun = t1.qOverrun ∧ t2.wr = t1.wr ∧ t2.idleCnt = t1.idleCnt ∧ t2.idleRun = t1.idleRun ∧
    (∀ j, readSlot t2 j = readSlot t1 j) ∧ (∀ j, readEntry t2 j = readEntry t1 j)

/-! ## Collisions and timing beside the step relation -/

/-- The tie-breaks of a clocked realisation: a serviced edge and a watchdog tick on one clock leave `wdg` at 0. The
tie-break is the spec's decision D27. -/
def Obligations.ServicedEdgeWinsOverATickOnTheSameClock : Prop :=
  ∀ (s : State) (now : Word) (seg : Byte), edgeServiced s →
    ∃ t, runOps (sameClock s (.grd1 now seg) .mst) s = .next t ∧ t.wdg = 0

/-- The sample instants of rule R160 are the sums of the waits of rule R92's table: each position is sampled one wait after
the one before it (the settling delay apart, which position 0 has already waited). Both are derived in the spec. -/
def Obligations.SampleInstantsAreTheSumsOfTheWaits : Prop :=
  ∀ (c : Config) (r : Int) (n : Nat), n ≤ 12 → sampleOffset c r (n + 1) = sampleOffset c r n + waitAfter c r n

/-! ## Under the launch premises of rule R151 -/

/-- What a clock that stays within its wrap and a consumer that keeps its duties may rely on. The period a serviced edge
measures is the counter's true advance since the serviced edge before it. A slot that the consumer reads after dequeuing its
event, and before it is written again, holds the line that was published with that event, and `SRD` delivers its field. The
premises are derived in the spec from rules R108, R111, R158 and R159; the notion of an execution is the model's own
(log 24). -/
def Obligations.PremisesMakePeriodsTrueAndReadsWhole : Prop :=
  ∀ (st : Nat → State) (op : Nat → Instr) (clock : Nat → Nat), IsExecution st op →
    (ClockWithinWrap st op clock → ∀ m n, m < n → ServicedAt st op m → ServicedAt st op n →
      (∀ j, m < j → j < n → ¬ ServicedAt st op j) → (st n).tsValid = true →
      (st (n + 1)).period.toNat = clock n - clock m) ∧
    (∀ p m n slot idx k, op n = .srd idx k → slot.toNat = idx.toNat % (st n).cfg.numLines → MayReadAt st op p m n slot →
      ∃ v, op p = .ttk v ∧ readSlot (st n) slot.toNat = some (publishedLine (atClassify v (st p))) ∧
        (st (n + 1)).out = .field (lineField (publishedLine (atClassify v (st p))) k))

/-- A cycle in progress ends: if the timer eventually expires while enabled and a pending tick is eventually serviced, then
from every state in SAMPLING the sequencer leaves it. Without the first premise it may stay for ever (rule R159). The
premises are derived in the spec (R151(e)) and 93_implementation_defined.md U11's; the notion of an execution is the model's
own (log 24). -/
def Obligations.FairTimerEndsEveryCycle : Prop :=
  ∀ (st : Nat → State) (op : Nat → Instr), IsExecution st op → SequencerInv (st 0) → TimerFair st op →
    TickServiceFair st op → ∀ n, (st n).fsm = .sampling → ∃ m, n ≤ m ∧ (st m).fsm ≠ .sampling
end

