-- ==== Sys2Proof/Laws/State.lean ====
section
/-!
SUPPORT. One lemma per field per update of the state, true by unfolding, so that no proof unfolds an update.
-/

namespace Sys2Proof.Machine

/-! `answer` writes `out` only. -/

@[simp] theorem answer_work (r : Result) (s : State) : (answer r s).work = s.work := rfl
@[simp] theorem answer_idleCnt (r : Result) (s : State) : (answer r s).idleCnt = s.idleCnt := rfl
@[simp] theorem answer_fsm (r : Result) (s : State) : (answer r s).fsm = s.fsm := rfl
@[simp] theorem answer_pos (r : Result) (s : State) : (answer r s).pos = s.pos := rfl
@[simp] theorem answer_chgMask (r : Result) (s : State) : (answer r s).chgMask = s.chgMask := rfl
@[simp] theorem answer_nbMask (r : Result) (s : State) : (answer r s).nbMask = s.nbMask := rfl
@[simp] theorem answer_idleRun (r : Result) (s : State) : (answer r s).idleRun = s.idleRun := rfl
@[simp] theorem answer_tsValid (r : Result) (s : State) : (answer r s).tsValid = s.tsValid := rfl
@[simp] theorem answer_lastTs (r : Result) (s : State) : (answer r s).lastTs = s.lastTs := rfl
@[simp] theorem answer_period (r : Result) (s : State) : (answer r s).period = s.period := rfl
@[simp] theorem answer_reload (r : Result) (s : State) : (answer r s).reload = s.reload := rfl
@[simp] theorem answer_tmrEn (r : Result) (s : State) : (answer r s).tmrEn = s.tmrEn := rfl
@[simp] theorem answer_tmrReload (r : Result) (s : State) : (answer r s).tmrReload = s.tmrReload := rfl
@[simp] theorem answer_tmrPending (r : Result) (s : State) : (answer r s).tmrPending = s.tmrPending := rfl
@[simp] theorem answer_gridQ (r : Result) (s : State) : (answer r s).gridQ = s.gridQ := rfl
@[simp] theorem answer_wdg (r : Result) (s : State) : (answer r s).wdg = s.wdg := rfl
@[simp] theorem answer_qHead (r : Result) (s : State) : (answer r s).qHead = s.qHead := rfl
@[simp] theorem answer_qTail (r : Result) (s : State) : (answer r s).qTail = s.qTail := rfl
@[simp] theorem answer_qOverrun (r : Result) (s : State) : (answer r s).qOverrun = s.qOverrun := rfl
@[simp] theorem answer_wr (r : Result) (s : State) : (answer r s).wr = s.wr := rfl
@[simp] theorem answer_fHex (r : Result) (s : State) : (answer r s).fHex = s.fHex := rfl
@[simp] theorem answer_fKey (r : Result) (s : State) : (answer r s).fKey = s.fKey := rfl
@[simp] theorem answer_mem (r : Result) (s : State) : (answer r s).mem = s.mem := rfl
@[simp] theorem answer_cfg (r : Result) (s : State) : (answer r s).cfg = s.cfg := rfl
@[simp] theorem answer_trace (r : Result) (s : State) : (answer r s).trace = s.trace := rfl
@[simp] theorem answer_handed (r : Result) (s : State) : (answer r s).handed = s.handed := rfl
@[simp] theorem answer_out (r : Result) (s : State) : (answer r s).out = r := rfl
@[simp] theorem answer_draw (r : Result) (s : State) : (answer r s).draw = s.draw := rfl

/-! `deliver` writes `out` and `draw` only. -/

@[simp] theorem deliver_work (r : Result) (s : State) : (deliver r s).work = s.work := rfl
@[simp] theorem deliver_idleCnt (r : Result) (s : State) : (deliver r s).idleCnt = s.idleCnt := rfl
@[simp] theorem deliver_fsm (r : Result) (s : State) : (deliver r s).fsm = s.fsm := rfl
@[simp] theorem deliver_pos (r : Result) (s : State) : (deliver r s).pos = s.pos := rfl
@[simp] theorem deliver_chgMask (r : Result) (s : State) : (deliver r s).chgMask = s.chgMask := rfl
@[simp] theorem deliver_nbMask (r : Result) (s : State) : (deliver r s).nbMask = s.nbMask := rfl
@[simp] theorem deliver_idleRun (r : Result) (s : State) : (deliver r s).idleRun = s.idleRun := rfl
@[simp] theorem deliver_tsValid (r : Result) (s : State) : (deliver r s).tsValid = s.tsValid := rfl
@[simp] theorem deliver_lastTs (r : Result) (s : State) : (deliver r s).lastTs = s.lastTs := rfl
@[simp] theorem deliver_period (r : Result) (s : State) : (deliver r s).period = s.period := rfl
@[simp] theorem deliver_reload (r : Result) (s : State) : (deliver r s).reload = s.reload := rfl
@[simp] theorem deliver_tmrEn (r : Result) (s : State) : (deliver r s).tmrEn = s.tmrEn := rfl
@[simp] theorem deliver_tmrReload (r : Result) (s : State) : (deliver r s).tmrReload = s.tmrReload := rfl
@[simp] theorem deliver_tmrPending (r : Result) (s : State) : (deliver r s).tmrPending = s.tmrPending := rfl
@[simp] theorem deliver_gridQ (r : Result) (s : State) : (deliver r s).gridQ = s.gridQ := rfl
@[simp] theorem deliver_wdg (r : Result) (s : State) : (deliver r s).wdg = s.wdg := rfl
@[simp] theorem deliver_qHead (r : Result) (s : State) : (deliver r s).qHead = s.qHead := rfl
@[simp] theorem deliver_qTail (r : Result) (s : State) : (deliver r s).qTail = s.qTail := rfl
@[simp] theorem deliver_qOverrun (r : Result) (s : State) : (deliver r s).qOverrun = s.qOverrun := rfl
@[simp] theorem deliver_wr (r : Result) (s : State) : (deliver r s).wr = s.wr := rfl
@[simp] theorem deliver_fHex (r : Result) (s : State) : (deliver r s).fHex = s.fHex := rfl
@[simp] theorem deliver_fKey (r : Result) (s : State) : (deliver r s).fKey = s.fKey := rfl
@[simp] theorem deliver_mem (r : Result) (s : State) : (deliver r s).mem = s.mem := rfl
@[simp] theorem deliver_cfg (r : Result) (s : State) : (deliver r s).cfg = s.cfg := rfl
@[simp] theorem deliver_trace (r : Result) (s : State) : (deliver r s).trace = s.trace := rfl
@[simp] theorem deliver_handed (r : Result) (s : State) : (deliver r s).handed = s.handed := rfl
@[simp] theorem deliver_out (r : Result) (s : State) : (deliver r s).out = r := rfl
@[simp] theorem deliver_draw (r : Result) (s : State) : (deliver r s).draw = s.draw + 1 := rfl

/-! `TIMER.set_period` (rule R81). -/

@[simp] theorem timerSetPeriod_work (v : Word) (s : State) : (timerSetPeriod v s).work = s.work := rfl
@[simp] theorem timerSetPeriod_idleCnt (v : Word) (s : State) : (timerSetPeriod v s).idleCnt = s.idleCnt := rfl
@[simp] theorem timerSetPeriod_fsm (v : Word) (s : State) : (timerSetPeriod v s).fsm = s.fsm := rfl
@[simp] theorem timerSetPeriod_pos (v : Word) (s : State) : (timerSetPeriod v s).pos = s.pos := rfl
@[simp] theorem timerSetPeriod_chgMask (v : Word) (s : State) : (timerSetPeriod v s).chgMask = s.chgMask := rfl
@[simp] theorem timerSetPeriod_nbMask (v : Word) (s : State) : (timerSetPeriod v s).nbMask = s.nbMask := rfl
@[simp] theorem timerSetPeriod_idleRun (v : Word) (s : State) : (timerSetPeriod v s).idleRun = s.idleRun := rfl
@[simp] theorem timerSetPeriod_tsValid (v : Word) (s : State) : (timerSetPeriod v s).tsValid = s.tsValid := rfl
@[simp] theorem timerSetPeriod_lastTs (v : Word) (s : State) : (timerSetPeriod v s).lastTs = s.lastTs := rfl
@[simp] theorem timerSetPeriod_period (v : Word) (s : State) : (timerSetPeriod v s).period = s.period := rfl
@[simp] theorem timerSetPeriod_reload (v : Word) (s : State) : (timerSetPeriod v s).reload = s.reload := rfl
@[simp] theorem timerSetPeriod_tmrEn (v : Word) (s : State) : (timerSetPeriod v s).tmrEn = s.tmrEn := rfl
@[simp] theorem timerSetPeriod_tmrReload (v : Word) (s : State) : (timerSetPeriod v s).tmrReload = v := rfl
@[simp] theorem timerSetPeriod_tmrPending (v : Word) (s : State) : (timerSetPeriod v s).tmrPending = false := rfl
@[simp] theorem timerSetPeriod_gridQ (v : Word) (s : State) : (timerSetPeriod v s).gridQ = s.gridQ := rfl
@[simp] theorem timerSetPeriod_wdg (v : Word) (s : State) : (timerSetPeriod v s).wdg = s.wdg := rfl
@[simp] theorem timerSetPeriod_qHead (v : Word) (s : State) : (timerSetPeriod v s).qHead = s.qHead := rfl
@[simp] theorem timerSetPeriod_qTail (v : Word) (s : State) : (timerSetPeriod v s).qTail = s.qTail := rfl
@[simp] theorem timerSetPeriod_qOverrun (v : Word) (s : State) : (timerSetPeriod v s).qOverrun = s.qOverrun := rfl
@[simp] theorem timerSetPeriod_wr (v : Word) (s : State) : (timerSetPeriod v s).wr = s.wr := rfl
@[simp] theorem timerSetPeriod_fHex (v : Word) (s : State) : (timerSetPeriod v s).fHex = s.fHex := rfl
@[simp] theorem timerSetPeriod_fKey (v : Word) (s : State) : (timerSetPeriod v s).fKey = s.fKey := rfl
@[simp] theorem timerSetPeriod_mem (v : Word) (s : State) : (timerSetPeriod v s).mem = s.mem := rfl
@[simp] theorem timerSetPeriod_cfg (v : Word) (s : State) : (timerSetPeriod v s).cfg = s.cfg := rfl
@[simp] theorem timerSetPeriod_trace (v : Word) (s : State) : (timerSetPeriod v s).trace = s.trace := rfl
@[simp] theorem timerSetPeriod_handed (v : Word) (s : State) : (timerSetPeriod v s).handed = s.handed := rfl
@[simp] theorem timerSetPeriod_out (v : Word) (s : State) : (timerSetPeriod v s).out = s.out := rfl
@[simp] theorem timerSetPeriod_draw (v : Word) (s : State) : (timerSetPeriod v s).draw = s.draw := rfl

/-! `TIMER.enable` (rule R82). -/

@[simp] theorem timerEnable_work (s : State) : (timerEnable s).work = s.work := rfl
@[simp] theorem timerEnable_idleCnt (s : State) : (timerEnable s).idleCnt = s.idleCnt := rfl
@[simp] theorem timerEnable_fsm (s : State) : (timerEnable s).fsm = s.fsm := rfl
@[simp] theorem timerEnable_pos (s : State) : (timerEnable s).pos = s.pos := rfl
@[simp] theorem timerEnable_chgMask (s : State) : (timerEnable s).chgMask = s.chgMask := rfl
@[simp] theorem timerEnable_nbMask (s : State) : (timerEnable s).nbMask = s.nbMask := rfl
@[simp] theorem timerEnable_idleRun (s : State) : (timerEnable s).idleRun = s.idleRun := rfl
@[simp] theorem timerEnable_tsValid (s : State) : (timerEnable s).tsValid = s.tsValid := rfl
@[simp] theorem timerEnable_lastTs (s : State) : (timerEnable s).lastTs = s.lastTs := rfl
@[simp] theorem timerEnable_period (s : State) : (timerEnable s).period = s.period := rfl
@[simp] theorem timerEnable_reload (s : State) : (timerEnable s).reload = s.reload := rfl
@[simp] theorem timerEnable_tmrEn (s : State) : (timerEnable s).tmrEn = true := rfl
@[simp] theorem timerEnable_tmrReload (s : State) : (timerEnable s).tmrReload = s.tmrReload := rfl
@[simp] theorem timerEnable_tmrPending (s : State) : (timerEnable s).tmrPending = s.tmrPending := rfl
@[simp] theorem timerEnable_gridQ (s : State) : (timerEnable s).gridQ = s.gridQ := rfl
@[simp] theorem timerEnable_wdg (s : State) : (timerEnable s).wdg = s.wdg := rfl
@[simp] theorem timerEnable_qHead (s : State) : (timerEnable s).qHead = s.qHead := rfl
@[simp] theorem timerEnable_qTail (s : State) : (timerEnable s).qTail = s.qTail := rfl
@[simp] theorem timerEnable_qOverrun (s : State) : (timerEnable s).qOverrun = s.qOverrun := rfl
@[simp] theorem timerEnable_wr (s : State) : (timerEnable s).wr = s.wr := rfl
@[simp] theorem timerEnable_fHex (s : State) : (timerEnable s).fHex = s.fHex := rfl
@[simp] theorem timerEnable_fKey (s : State) : (timerEnable s).fKey = s.fKey := rfl
@[simp] theorem timerEnable_mem (s : State) : (timerEnable s).mem = s.mem := rfl
@[simp] theorem timerEnable_cfg (s : State) : (timerEnable s).cfg = s.cfg := rfl
@[simp] theorem timerEnable_trace (s : State) : (timerEnable s).trace = s.trace := rfl
@[simp] theorem timerEnable_handed (s : State) : (timerEnable s).handed = s.handed := rfl
@[simp] theorem timerEnable_out (s : State) : (timerEnable s).out = s.out := rfl
@[simp] theorem timerEnable_draw (s : State) : (timerEnable s).draw = s.draw := rfl

/-! `TIMER.disable` (rule R83). -/

@[simp] theorem timerDisable_work (s : State) : (timerDisable s).work = s.work := rfl
@[simp] theorem timerDisable_idleCnt (s : State) : (timerDisable s).idleCnt = s.idleCnt := rfl
@[simp] theorem timerDisable_fsm (s : State) : (timerDisable s).fsm = s.fsm := rfl
@[simp] theorem timerDisable_pos (s : State) : (timerDisable s).pos = s.pos := rfl
@[simp] theorem timerDisable_chgMask (s : State) : (timerDisable s).chgMask = s.chgMask := rfl
@[simp] theorem timerDisable_nbMask (s : State) : (timerDisable s).nbMask = s.nbMask := rfl
@[simp] theorem timerDisable_idleRun (s : State) : (timerDisable s).idleRun = s.idleRun := rfl
@[simp] theorem timerDisable_tsValid (s : State) : (timerDisable s).tsValid = s.tsValid := rfl
@[simp] theorem timerDisable_lastTs (s : State) : (timerDisable s).lastTs = s.lastTs := rfl
@[simp] theorem timerDisable_period (s : State) : (timerDisable s).period = s.period := rfl
@[simp] theorem timerDisable_reload (s : State) : (timerDisable s).reload = s.reload := rfl
@[simp] theorem timerDisable_tmrEn (s : State) : (timerDisable s).tmrEn = false := rfl
@[simp] theorem timerDisable_tmrReload (s : State) : (timerDisable s).tmrReload = s.tmrReload := rfl
@[simp] theorem timerDisable_tmrPending (s : State) : (timerDisable s).tmrPending = s.tmrPending := rfl
@[simp] theorem timerDisable_gridQ (s : State) : (timerDisable s).gridQ = s.gridQ := rfl
@[simp] theorem timerDisable_wdg (s : State) : (timerDisable s).wdg = s.wdg := rfl
@[simp] theorem timerDisable_qHead (s : State) : (timerDisable s).qHead = s.qHead := rfl
@[simp] theorem timerDisable_qTail (s : State) : (timerDisable s).qTail = s.qTail := rfl
@[simp] theorem timerDisable_qOverrun (s : State) : (timerDisable s).qOverrun = s.qOverrun := rfl
@[simp] theorem timerDisable_wr (s : State) : (timerDisable s).wr = s.wr := rfl
@[simp] theorem timerDisable_fHex (s : State) : (timerDisable s).fHex = s.fHex := rfl
@[simp] theorem timerDisable_fKey (s : State) : (timerDisable s).fKey = s.fKey := rfl
@[simp] theorem timerDisable_mem (s : State) : (timerDisable s).mem = s.mem := rfl
@[simp] theorem timerDisable_cfg (s : State) : (timerDisable s).cfg = s.cfg := rfl
@[simp] theorem timerDisable_trace (s : State) : (timerDisable s).trace = s.trace := rfl
@[simp] theorem timerDisable_handed (s : State) : (timerDisable s).handed = s.handed := rfl
@[simp] theorem timerDisable_out (s : State) : (timerDisable s).out = s.out := rfl
@[simp] theorem timerDisable_draw (s : State) : (timerDisable s).draw = s.draw := rfl

/-! `SAMPLE` (rule R87). -/

@[simp] theorem sample_work (p : Position) (v : Byte) (s : State) : (sample p v s).work = s.work.set p.val v := rfl
@[simp] theorem sample_idleCnt (p : Position) (v : Byte) (s : State) : (sample p v s).idleCnt = s.idleCnt := rfl
@[simp] theorem sample_fsm (p : Position) (v : Byte) (s : State) : (sample p v s).fsm = s.fsm := rfl
@[simp] theorem sample_pos (p : Position) (v : Byte) (s : State) : (sample p v s).pos = s.pos := rfl
@[simp] theorem sample_chgMask (p : Position) (v : Byte) (s : State) : (sample p v s).chgMask = foldMask s.chgMask p (partChg s p) (v != s.work[p.val]) := rfl
@[simp] theorem sample_nbMask (p : Position) (v : Byte) (s : State) : (sample p v s).nbMask = foldMask s.nbMask p (partNb s p) (v != 0) := rfl
@[simp] theorem sample_idleRun (p : Position) (v : Byte) (s : State) : (sample p v s).idleRun = s.idleRun := rfl
@[simp] theorem sample_tsValid (p : Position) (v : Byte) (s : State) : (sample p v s).tsValid = s.tsValid := rfl
@[simp] theorem sample_lastTs (p : Position) (v : Byte) (s : State) : (sample p v s).lastTs = s.lastTs := rfl
@[simp] theorem sample_period (p : Position) (v : Byte) (s : State) : (sample p v s).period = s.period := rfl
@[simp] theorem sample_reload (p : Position) (v : Byte) (s : State) : (sample p v s).reload = s.reload := rfl
@[simp] theorem sample_tmrEn (p : Position) (v : Byte) (s : State) : (sample p v s).tmrEn = s.tmrEn := rfl
@[simp] theorem sample_tmrReload (p : Position) (v : Byte) (s : State) : (sample p v s).tmrReload = s.tmrReload := rfl
@[simp] theorem sample_tmrPending (p : Position) (v : Byte) (s : State) : (sample p v s).tmrPending = s.tmrPending := rfl
@[simp] theorem sample_gridQ (p : Position) (v : Byte) (s : State) : (sample p v s).gridQ = s.gridQ := rfl
@[simp] theorem sample_wdg (p : Position) (v : Byte) (s : State) : (sample p v s).wdg = s.wdg := rfl
@[simp] theorem sample_qHead (p : Position) (v : Byte) (s : State) : (sample p v s).qHead = s.qHead := rfl
@[simp] theorem sample_qTail (p : Position) (v : Byte) (s : State) : (sample p v s).qTail = s.qTail := rfl
@[simp] theorem sample_qOverrun (p : Position) (v : Byte) (s : State) : (sample p v s).qOverrun = s.qOverrun := rfl
@[simp] theorem sample_wr (p : Position) (v : Byte) (s : State) : (sample p v s).wr = s.wr := rfl
@[simp] theorem sample_fHex (p : Position) (v : Byte) (s : State) : (sample p v s).fHex = s.fHex := rfl
@[simp] theorem sample_fKey (p : Position) (v : Byte) (s : State) : (sample p v s).fKey = s.fKey := rfl
@[simp] theorem sample_mem (p : Position) (v : Byte) (s : State) : (sample p v s).mem = s.mem := rfl
@[simp] theorem sample_cfg (p : Position) (v : Byte) (s : State) : (sample p v s).cfg = s.cfg := rfl
@[simp] theorem sample_trace (p : Position) (v : Byte) (s : State) : (sample p v s).trace = s.trace := rfl
@[simp] theorem sample_handed (p : Position) (v : Byte) (s : State) : (sample p v s).handed = s.handed := rfl
@[simp] theorem sample_out (p : Position) (v : Byte) (s : State) : (sample p v s).out = s.out := rfl
@[simp] theorem sample_draw (p : Position) (v : Byte) (s : State) : (sample p v s).draw = s.draw := rfl

/-! Writing a history slot. -/

@[simp] theorem writeSlot_work (i : Nat) (line : ScanLine) (s : State) : (writeSlot i line s).work = s.work := rfl
@[simp] theorem writeSlot_idleCnt (i : Nat) (line : ScanLine) (s : State) : (writeSlot i line s).idleCnt = s.idleCnt := rfl
@[simp] theorem writeSlot_fsm (i : Nat) (line : ScanLine) (s : State) : (writeSlot i line s).fsm = s.fsm := rfl
@[simp] theorem writeSlot_pos (i : Nat) (line : ScanLine) (s : State) : (writeSlot i line s).pos = s.pos := rfl
@[simp] theorem writeSlot_chgMask (i : Nat) (line : ScanLine) (s : State) : (writeSlot i line s).chgMask = s.chgMask := rfl
@[simp] theorem writeSlot_nbMask (i : Nat) (line : ScanLine) (s : State) : (writeSlot i line s).nbMask = s.nbMask := rfl
@[simp] theorem writeSlot_idleRun (i : Nat) (line : ScanLine) (s : State) : (writeSlot i line s).idleRun = s.idleRun := rfl
@[simp] theorem writeSlot_tsValid (i : Nat) (line : ScanLine) (s : State) : (writeSlot i line s).tsValid = s.tsValid := rfl
@[simp] theorem writeSlot_lastTs (i : Nat) (line : ScanLine) (s : State) : (writeSlot i line s).lastTs = s.lastTs := rfl
@[simp] theorem writeSlot_period (i : Nat) (line : ScanLine) (s : State) : (writeSlot i line s).period = s.period := rfl
@[simp] theorem writeSlot_reload (i : Nat) (line : ScanLine) (s : State) : (writeSlot i line s).reload = s.reload := rfl
@[simp] theorem writeSlot_tmrEn (i : Nat) (line : ScanLine) (s : State) : (writeSlot i line s).tmrEn = s.tmrEn := rfl
@[simp] theorem writeSlot_tmrReload (i : Nat) (line : ScanLine) (s : State) : (writeSlot i line s).tmrReload = s.tmrReload := rfl
@[simp] theorem writeSlot_tmrPending (i : Nat) (line : ScanLine) (s : State) : (writeSlot i line s).tmrPending = s.tmrPending := rfl
@[simp] theorem writeSlot_gridQ (i : Nat) (line : ScanLine) (s : State) : (writeSlot i line s).gridQ = s.gridQ := rfl
@[simp] theorem writeSlot_wdg (i : Nat) (line : ScanLine) (s : State) : (writeSlot i line s).wdg = s.wdg := rfl
@[simp] theorem writeSlot_qHead (i : Nat) (line : ScanLine) (s : State) : (writeSlot i line s).qHead = s.qHead := rfl
@[simp] theorem writeSlot_qTail (i : Nat) (line : ScanLine) (s : State) : (writeSlot i line s).qTail = s.qTail := rfl
@[simp] theorem writeSlot_qOverrun (i : Nat) (line : ScanLine) (s : State) : (writeSlot i line s).qOverrun = s.qOverrun := rfl
@[simp] theorem writeSlot_wr (i : Nat) (line : ScanLine) (s : State) : (writeSlot i line s).wr = s.wr := rfl
@[simp] theorem writeSlot_fHex (i : Nat) (line : ScanLine) (s : State) : (writeSlot i line s).fHex = s.fHex := rfl
@[simp] theorem writeSlot_fKey (i : Nat) (line : ScanLine) (s : State) : (writeSlot i line s).fKey = s.fKey := rfl
@[simp] theorem writeSlot_mem (i : Nat) (line : ScanLine) (s : State) : (writeSlot i line s).mem = { s.mem with hist := storeWrite s.mem.hist i line } := rfl
@[simp] theorem writeSlot_cfg (i : Nat) (line : ScanLine) (s : State) : (writeSlot i line s).cfg = s.cfg := rfl
@[simp] theorem writeSlot_trace (i : Nat) (line : ScanLine) (s : State) : (writeSlot i line s).trace = s.trace := rfl
@[simp] theorem writeSlot_handed (i : Nat) (line : ScanLine) (s : State) : (writeSlot i line s).handed = s.handed := rfl
@[simp] theorem writeSlot_out (i : Nat) (line : ScanLine) (s : State) : (writeSlot i line s).out = s.out := rfl
@[simp] theorem writeSlot_draw (i : Nat) (line : ScanLine) (s : State) : (writeSlot i line s).draw = s.draw := rfl

/-! Writing a queue entry. -/

@[simp] theorem writeEntry_work (i : Nat) (b : Byte) (s : State) : (writeEntry i b s).work = s.work := rfl
@[simp] theorem writeEntry_idleCnt (i : Nat) (b : Byte) (s : State) : (writeEntry i b s).idleCnt = s.idleCnt := rfl
@[simp] theorem writeEntry_fsm (i : Nat) (b : Byte) (s : State) : (writeEntry i b s).fsm = s.fsm := rfl
@[simp] theorem writeEntry_pos (i : Nat) (b : Byte) (s : State) : (writeEntry i b s).pos = s.pos := rfl
@[simp] theorem writeEntry_chgMask (i : Nat) (b : Byte) (s : State) : (writeEntry i b s).chgMask = s.chgMask := rfl
@[simp] theorem writeEntry_nbMask (i : Nat) (b : Byte) (s : State) : (writeEntry i b s).nbMask = s.nbMask := rfl
@[simp] theorem writeEntry_idleRun (i : Nat) (b : Byte) (s : State) : (writeEntry i b s).idleRun = s.idleRun := rfl
@[simp] theorem writeEntry_tsValid (i : Nat) (b : Byte) (s : State) : (writeEntry i b s).tsValid = s.tsValid := rfl
@[simp] theorem writeEntry_lastTs (i : Nat) (b : Byte) (s : State) : (writeEntry i b s).lastTs = s.lastTs := rfl
@[simp] theorem writeEntry_period (i : Nat) (b : Byte) (s : State) : (writeEntry i b s).period = s.period := rfl
@[simp] theorem writeEntry_reload (i : Nat) (b : Byte) (s : State) : (writeEntry i b s).reload = s.reload := rfl
@[simp] theorem writeEntry_tmrEn (i : Nat) (b : Byte) (s : State) : (writeEntry i b s).tmrEn = s.tmrEn := rfl
@[simp] theorem writeEntry_tmrReload (i : Nat) (b : Byte) (s : State) : (writeEntry i b s).tmrReload = s.tmrReload := rfl
@[simp] theorem writeEntry_tmrPending (i : Nat) (b : Byte) (s : State) : (writeEntry i b s).tmrPending = s.tmrPending := rfl
@[simp] theorem writeEntry_gridQ (i : Nat) (b : Byte) (s : State) : (writeEntry i b s).gridQ = s.gridQ := rfl
@[simp] theorem writeEntry_wdg (i : Nat) (b : Byte) (s : State) : (writeEntry i b s).wdg = s.wdg := rfl
@[simp] theorem writeEntry_qHead (i : Nat) (b : Byte) (s : State) : (writeEntry i b s).qHead = s.qHead := rfl
@[simp] theorem writeEntry_qTail (i : Nat) (b : Byte) (s : State) : (writeEntry i b s).qTail = s.qTail := rfl
@[simp] theorem writeEntry_qOverrun (i : Nat) (b : Byte) (s : State) : (writeEntry i b s).qOverrun = s.qOverrun := rfl
@[simp] theorem writeEntry_wr (i : Nat) (b : Byte) (s : State) : (writeEntry i b s).wr = s.wr := rfl
@[simp] theorem writeEntry_fHex (i : Nat) (b : Byte) (s : State) : (writeEntry i b s).fHex = s.fHex := rfl
@[simp] theorem writeEntry_fKey (i : Nat) (b : Byte) (s : State) : (writeEntry i b s).fKey = s.fKey := rfl
@[simp] theorem writeEntry_mem (i : Nat) (b : Byte) (s : State) : (writeEntry i b s).mem = { s.mem with qBuf := storeWrite s.mem.qBuf i b } := rfl
@[simp] theorem writeEntry_cfg (i : Nat) (b : Byte) (s : State) : (writeEntry i b s).cfg = s.cfg := rfl
@[simp] theorem writeEntry_trace (i : Nat) (b : Byte) (s : State) : (writeEntry i b s).trace = s.trace := rfl
@[simp] theorem writeEntry_handed (i : Nat) (b : Byte) (s : State) : (writeEntry i b s).handed = s.handed := rfl
@[simp] theorem writeEntry_out (i : Nat) (b : Byte) (s : State) : (writeEntry i b s).out = s.out := rfl
@[simp] theorem writeEntry_draw (i : Nat) (b : Byte) (s : State) : (writeEntry i b s).draw = s.draw := rfl

/-! The timer's expiry (rule R88). -/

@[simp] theorem timerExpire_work (s : State) : (timerExpire s).work = s.work := rfl
@[simp] theorem timerExpire_idleCnt (s : State) : (timerExpire s).idleCnt = s.idleCnt := rfl
@[simp] theorem timerExpire_fsm (s : State) : (timerExpire s).fsm = s.fsm := rfl
@[simp] theorem timerExpire_pos (s : State) : (timerExpire s).pos = s.pos := rfl
@[simp] theorem timerExpire_chgMask (s : State) : (timerExpire s).chgMask = s.chgMask := rfl
@[simp] theorem timerExpire_nbMask (s : State) : (timerExpire s).nbMask = s.nbMask := rfl
@[simp] theorem timerExpire_idleRun (s : State) : (timerExpire s).idleRun = s.idleRun := rfl
@[simp] theorem timerExpire_tsValid (s : State) : (timerExpire s).tsValid = s.tsValid := rfl
@[simp] theorem timerExpire_lastTs (s : State) : (timerExpire s).lastTs = s.lastTs := rfl
@[simp] theorem timerExpire_period (s : State) : (timerExpire s).period = s.period := rfl
@[simp] theorem timerExpire_reload (s : State) : (timerExpire s).reload = s.reload := rfl
@[simp] theorem timerExpire_tmrEn (s : State) : (timerExpire s).tmrEn = s.tmrEn := rfl
@[simp] theorem timerExpire_tmrReload (s : State) : (timerExpire s).tmrReload = s.tmrReload := rfl
@[simp] theorem timerExpire_tmrPending (s : State) : (timerExpire s).tmrPending = true := rfl
@[simp] theorem timerExpire_gridQ (s : State) : (timerExpire s).gridQ = s.gridQ := rfl
@[simp] theorem timerExpire_wdg (s : State) : (timerExpire s).wdg = s.wdg := rfl
@[simp] theorem timerExpire_qHead (s : State) : (timerExpire s).qHead = s.qHead := rfl
@[simp] theorem timerExpire_qTail (s : State) : (timerExpire s).qTail = s.qTail := rfl
@[simp] theorem timerExpire_qOverrun (s : State) : (timerExpire s).qOverrun = s.qOverrun := rfl
@[simp] theorem timerExpire_wr (s : State) : (timerExpire s).wr = s.wr := rfl
@[simp] theorem timerExpire_fHex (s : State) : (timerExpire s).fHex = s.fHex := rfl
@[simp] theorem timerExpire_fKey (s : State) : (timerExpire s).fKey = s.fKey := rfl
@[simp] theorem timerExpire_mem (s : State) : (timerExpire s).mem = s.mem := rfl
@[simp] theorem timerExpire_cfg (s : State) : (timerExpire s).cfg = s.cfg := rfl
@[simp] theorem timerExpire_trace (s : State) : (timerExpire s).trace = s.trace := rfl
@[simp] theorem timerExpire_handed (s : State) : (timerExpire s).handed = s.handed := rfl
@[simp] theorem timerExpire_out (s : State) : (timerExpire s).out = s.out := rfl
@[simp] theorem timerExpire_draw (s : State) : (timerExpire s).draw = s.draw := rfl

/-! A discarded event (rule R108). -/

@[simp] theorem countOverrun_work (s : State) : (countOverrun s).work = s.work := rfl
@[simp] theorem countOverrun_idleCnt (s : State) : (countOverrun s).idleCnt = s.idleCnt := rfl
@[simp] theorem countOverrun_fsm (s : State) : (countOverrun s).fsm = s.fsm := rfl
@[simp] theorem countOverrun_pos (s : State) : (countOverrun s).pos = s.pos := rfl
@[simp] theorem countOverrun_chgMask (s : State) : (countOverrun s).chgMask = s.chgMask := rfl
@[simp] theorem countOverrun_nbMask (s : State) : (countOverrun s).nbMask = s.nbMask := rfl
@[simp] theorem countOverrun_idleRun (s : State) : (countOverrun s).idleRun = s.idleRun := rfl
@[simp] theorem countOverrun_tsValid (s : State) : (countOverrun s).tsValid = s.tsValid := rfl
@[simp] theorem countOverrun_lastTs (s : State) : (countOverrun s).lastTs = s.lastTs := rfl
@[simp] theorem countOverrun_period (s : State) : (countOverrun s).period = s.period := rfl
@[simp] theorem countOverrun_reload (s : State) : (countOverrun s).reload = s.reload := rfl
@[simp] theorem countOverrun_tmrEn (s : State) : (countOverrun s).tmrEn = s.tmrEn := rfl
@[simp] theorem countOverrun_tmrReload (s : State) : (countOverrun s).tmrReload = s.tmrReload := rfl
@[simp] theorem countOverrun_tmrPending (s : State) : (countOverrun s).tmrPending = s.tmrPending := rfl
@[simp] theorem countOverrun_gridQ (s : State) : (countOverrun s).gridQ = s.gridQ := rfl
@[simp] theorem countOverrun_wdg (s : State) : (countOverrun s).wdg = s.wdg := rfl
@[simp] theorem countOverrun_qHead (s : State) : (countOverrun s).qHead = s.qHead := rfl
@[simp] theorem countOverrun_qTail (s : State) : (countOverrun s).qTail = s.qTail := rfl
@[simp] theorem countOverrun_qOverrun (s : State) : (countOverrun s).qOverrun = satInc s.qOverrun := rfl
@[simp] theorem countOverrun_wr (s : State) : (countOverrun s).wr = s.wr := rfl
@[simp] theorem countOverrun_fHex (s : State) : (countOverrun s).fHex = s.fHex := rfl
@[simp] theorem countOverrun_fKey (s : State) : (countOverrun s).fKey = s.fKey := rfl
@[simp] theorem countOverrun_mem (s : State) : (countOverrun s).mem = s.mem := rfl
@[simp] theorem countOverrun_cfg (s : State) : (countOverrun s).cfg = s.cfg := rfl
@[simp] theorem countOverrun_trace (s : State) : (countOverrun s).trace = s.trace := rfl
@[simp] theorem countOverrun_handed (s : State) : (countOverrun s).handed = s.handed := rfl
@[simp] theorem countOverrun_out (s : State) : (countOverrun s).out = s.out := rfl
@[simp] theorem countOverrun_draw (s : State) : (countOverrun s).draw = s.draw := rfl

/-! The publication of an event (rule R107). -/

@[simp] theorem advanceHead_work (s : State) : (advanceHead s).work = s.work := rfl
@[simp] theorem advanceHead_idleCnt (s : State) : (advanceHead s).idleCnt = s.idleCnt := rfl
@[simp] theorem advanceHead_fsm (s : State) : (advanceHead s).fsm = s.fsm := rfl
@[simp] theorem advanceHead_pos (s : State) : (advanceHead s).pos = s.pos := rfl
@[simp] theorem advanceHead_chgMask (s : State) : (advanceHead s).chgMask = s.chgMask := rfl
@[simp] theorem advanceHead_nbMask (s : State) : (advanceHead s).nbMask = s.nbMask := rfl
@[simp] theorem advanceHead_idleRun (s : State) : (advanceHead s).idleRun = s.idleRun := rfl
@[simp] theorem advanceHead_tsValid (s : State) : (advanceHead s).tsValid = s.tsValid := rfl
@[simp] theorem advanceHead_lastTs (s : State) : (advanceHead s).lastTs = s.lastTs := rfl
@[simp] theorem advanceHead_period (s : State) : (advanceHead s).period = s.period := rfl
@[simp] theorem advanceHead_reload (s : State) : (advanceHead s).reload = s.reload := rfl
@[simp] theorem advanceHead_tmrEn (s : State) : (advanceHead s).tmrEn = s.tmrEn := rfl
@[simp] theorem advanceHead_tmrReload (s : State) : (advanceHead s).tmrReload = s.tmrReload := rfl
@[simp] theorem advanceHead_tmrPending (s : State) : (advanceHead s).tmrPending = s.tmrPending := rfl
@[simp] theorem advanceHead_gridQ (s : State) : (advanceHead s).gridQ = s.gridQ := rfl
@[simp] theorem advanceHead_wdg (s : State) : (advanceHead s).wdg = s.wdg := rfl
@[simp] theorem advanceHead_qHead (s : State) : (advanceHead s).qHead = s.qHead + 1 := rfl
@[simp] theorem advanceHead_qTail (s : State) : (advanceHead s).qTail = s.qTail := rfl
@[simp] theorem advanceHead_qOverrun (s : State) : (advanceHead s).qOverrun = s.qOverrun := rfl
@[simp] theorem advanceHead_wr (s : State) : (advanceHead s).wr = s.wr := rfl
@[simp] theorem advanceHead_fHex (s : State) : (advanceHead s).fHex = s.fHex := rfl
@[simp] theorem advanceHead_fKey (s : State) : (advanceHead s).fKey = s.fKey := rfl
@[simp] theorem advanceHead_mem (s : State) : (advanceHead s).mem = s.mem := rfl
@[simp] theorem advanceHead_cfg (s : State) : (advanceHead s).cfg = s.cfg := rfl
@[simp] theorem advanceHead_trace (s : State) : (advanceHead s).trace = s.trace := rfl
@[simp] theorem advanceHead_handed (s : State) : (advanceHead s).handed = s.handed := rfl
@[simp] theorem advanceHead_out (s : State) : (advanceHead s).out = s.out := rfl
@[simp] theorem advanceHead_draw (s : State) : (advanceHead s).draw = s.draw := rfl

/-! The consumption of an event (rule R109). -/

@[simp] theorem advanceTail_work (s : State) : (advanceTail s).work = s.work := rfl
@[simp] theorem advanceTail_idleCnt (s : State) : (advanceTail s).idleCnt = s.idleCnt := rfl
@[simp] theorem advanceTail_fsm (s : State) : (advanceTail s).fsm = s.fsm := rfl
@[simp] theorem advanceTail_pos (s : State) : (advanceTail s).pos = s.pos := rfl
@[simp] theorem advanceTail_chgMask (s : State) : (advanceTail s).chgMask = s.chgMask := rfl
@[simp] theorem advanceTail_nbMask (s : State) : (advanceTail s).nbMask = s.nbMask := rfl
@[simp] theorem advanceTail_idleRun (s : State) : (advanceTail s).idleRun = s.idleRun := rfl
@[simp] theorem advanceTail_tsValid (s : State) : (advanceTail s).tsValid = s.tsValid := rfl
@[simp] theorem advanceTail_lastTs (s : State) : (advanceTail s).lastTs = s.lastTs := rfl
@[simp] theorem advanceTail_period (s : State) : (advanceTail s).period = s.period := rfl
@[simp] theorem advanceTail_reload (s : State) : (advanceTail s).reload = s.reload := rfl
@[simp] theorem advanceTail_tmrEn (s : State) : (advanceTail s).tmrEn = s.tmrEn := rfl
@[simp] theorem advanceTail_tmrReload (s : State) : (advanceTail s).tmrReload = s.tmrReload := rfl
@[simp] theorem advanceTail_tmrPending (s : State) : (advanceTail s).tmrPending = s.tmrPending := rfl
@[simp] theorem advanceTail_gridQ (s : State) : (advanceTail s).gridQ = s.gridQ := rfl
@[simp] theorem advanceTail_wdg (s : State) : (advanceTail s).wdg = s.wdg := rfl
@[simp] theorem advanceTail_qHead (s : State) : (advanceTail s).qHead = s.qHead := rfl
@[simp] theorem advanceTail_qTail (s : State) : (advanceTail s).qTail = s.qTail + 1 := rfl
@[simp] theorem advanceTail_qOverrun (s : State) : (advanceTail s).qOverrun = s.qOverrun := rfl
@[simp] theorem advanceTail_wr (s : State) : (advanceTail s).wr = s.wr := rfl
@[simp] theorem advanceTail_fHex (s : State) : (advanceTail s).fHex = s.fHex := rfl
@[simp] theorem advanceTail_fKey (s : State) : (advanceTail s).fKey = s.fKey := rfl
@[simp] theorem advanceTail_mem (s : State) : (advanceTail s).mem = s.mem := rfl
@[simp] theorem advanceTail_cfg (s : State) : (advanceTail s).cfg = s.cfg := rfl
@[simp] theorem advanceTail_trace (s : State) : (advanceTail s).trace = s.trace := rfl
@[simp] theorem advanceTail_handed (s : State) : (advanceTail s).handed = s.handed := rfl
@[simp] theorem advanceTail_out (s : State) : (advanceTail s).out = s.out := rfl
@[simp] theorem advanceTail_draw (s : State) : (advanceTail s).draw = s.draw := rfl

/-! `PUSH` writes `q_overrun`, or `q_buf` and `q_head`, and nothing else (rule R107). -/

@[simp] theorem push_work (b : Byte) (s : State) : (push b s).work = s.work := by unfold push; split <;> rfl
@[simp] theorem push_idleCnt (b : Byte) (s : State) : (push b s).idleCnt = s.idleCnt := by unfold push; split <;> rfl
@[simp] theorem push_fsm (b : Byte) (s : State) : (push b s).fsm = s.fsm := by unfold push; split <;> rfl
@[simp] theorem push_pos (b : Byte) (s : State) : (push b s).pos = s.pos := by unfold push; split <;> rfl
@[simp] theorem push_chgMask (b : Byte) (s : State) : (push b s).chgMask = s.chgMask := by unfold push; split <;> rfl
@[simp] theorem push_nbMask (b : Byte) (s : State) : (push b s).nbMask = s.nbMask := by unfold push; split <;> rfl
@[simp] theorem push_idleRun (b : Byte) (s : State) : (push b s).idleRun = s.idleRun := by unfold push; split <;> rfl
@[simp] theorem push_tsValid (b : Byte) (s : State) : (push b s).tsValid = s.tsValid := by unfold push; split <;> rfl
@[simp] theorem push_lastTs (b : Byte) (s : State) : (push b s).lastTs = s.lastTs := by unfold push; split <;> rfl
@[simp] theorem push_period (b : Byte) (s : State) : (push b s).period = s.period := by unfold push; split <;> rfl
@[simp] theorem push_reload (b : Byte) (s : State) : (push b s).reload = s.reload := by unfold push; split <;> rfl
@[simp] theorem push_tmrEn (b : Byte) (s : State) : (push b s).tmrEn = s.tmrEn := by unfold push; split <;> rfl
@[simp] theorem push_tmrReload (b : Byte) (s : State) : (push b s).tmrReload = s.tmrReload := by unfold push; split <;> rfl
@[simp] theorem push_tmrPending (b : Byte) (s : State) : (push b s).tmrPending = s.tmrPending := by unfold push; split <;> rfl
@[simp] theorem push_gridQ (b : Byte) (s : State) : (push b s).gridQ = s.gridQ := by unfold push; split <;> rfl
@[simp] theorem push_wdg (b : Byte) (s : State) : (push b s).wdg = s.wdg := by unfold push; split <;> rfl
@[simp] theorem push_qTail (b : Byte) (s : State) : (push b s).qTail = s.qTail := by unfold push; split <;> rfl
@[simp] theorem push_wr (b : Byte) (s : State) : (push b s).wr = s.wr := by unfold push; split <;> rfl
@[simp] theorem push_fHex (b : Byte) (s : State) : (push b s).fHex = s.fHex := by unfold push; split <;> rfl
@[simp] theorem push_fKey (b : Byte) (s : State) : (push b s).fKey = s.fKey := by unfold push; split <;> rfl
@[simp] theorem push_cfg (b : Byte) (s : State) : (push b s).cfg = s.cfg := by unfold push; split <;> rfl
@[simp] theorem push_trace (b : Byte) (s : State) : (push b s).trace = s.trace := by unfold push; split <;> rfl
@[simp] theorem push_handed (b : Byte) (s : State) : (push b s).handed = s.handed := by unfold push; split <;> rfl
@[simp] theorem push_out (b : Byte) (s : State) : (push b s).out = s.out := by unfold push; split <;> rfl
@[simp] theorem push_draw (b : Byte) (s : State) : (push b s).draw = s.draw := by unfold push; split <;> rfl

end Sys2Proof.Machine
end

