-- ==== Sys2Proof/Laws/Store.lean ====
section
/-!
SUPPORT. The laws of the two index spaces: a read after a write to the same place gives the value written, a write leaves
every other place alone, and every memory operation keeps the canonical form.
-/

namespace Sys2Proof.Machine

@[simp] theorem storeRead_write_same {α : Type} (m : List (Nat × α)) (a : Nat) (v : α) :
    storeRead (storeWrite m a v) a = some v := by
  induction m with
  | nil => simp [storeWrite, storeRead]
  | cons e rest ih =>
    obtain ⟨b, w⟩ := e
    simp only [storeWrite]
    split_ifs with h1 h2
    · simp [storeRead]
    · simp [storeRead]
    · simp [storeRead, h2, ih]

theorem storeRead_write_other {α : Type} (m : List (Nat × α)) (a c : Nat) (v : α) (h : c ≠ a) :
    storeRead (storeWrite m a v) c = storeRead m c := by
  induction m with
  | nil => simp [storeWrite, storeRead, h]
  | cons e rest ih =>
    obtain ⟨b, w⟩ := e
    simp only [storeWrite]
    split_ifs with h1 h2
    · simp [storeRead, h]
    · subst h2; simp [storeRead, h]
    · simp [storeRead, ih]

/-- Reading after a write, in one equation. -/
theorem storeRead_write {α : Type} (m : List (Nat × α)) (a c : Nat) (v : α) :
    storeRead (storeWrite m a v) c = if c = a then some v else storeRead m c := by
  split_ifs with h
  · subst h; simp
  · exact storeRead_write_other m a c v h

theorem risesAbove_write {α : Type} (lo a : Nat) (v : α) (h : lo < a) (m : List (Nat × α))
    (hm : risesAbove lo m = true) : risesAbove lo (storeWrite m a v) = true := by
  induction m generalizing lo with
  | nil => simp [storeWrite, risesAbove, h]
  | cons e rest ih =>
    obtain ⟨b, w⟩ := e
    simp only [risesAbove, Bool.and_eq_true, decide_eq_true_eq] at hm
    simp only [storeWrite]
    split_ifs with h1 h2
    · simp [risesAbove, h, h1, hm.2]
    · subst h2; simp [risesAbove, h, hm.2]
    · simp only [risesAbove, Bool.and_eq_true, decide_eq_true_eq]
      exact ⟨hm.1, ih b (by omega) hm.2⟩

/-- A write keeps the canonical form of an index space. -/
theorem storeWf_write {α : Type} (m : List (Nat × α)) (a : Nat) (v : α) (hm : storeWf m = true) :
    storeWf (storeWrite m a v) = true := by
  cases m with
  | nil => simp [storeWrite, storeWf, risesAbove]
  | cons e rest =>
    obtain ⟨b, w⟩ := e
    simp only [storeWf] at hm
    simp only [storeWrite]
    split_ifs with h1 h2
    · simp [storeWf, risesAbove, h1, hm]
    · subst h2; simpa [storeWf] using hm
    · simpa [storeWf] using risesAbove_write b a v (by omega) rest hm

/-- A write inside the index space keeps every listed index inside it. -/
theorem storeBelow_write {α : Type} (n a : Nat) (v : α) (m : List (Nat × α)) (ha : a < n) (hm : storeBelow n m = true) :
    storeBelow n (storeWrite m a v) = true := by
  induction m with
  | nil => simp [storeWrite, storeBelow, ha]
  | cons e rest ih =>
    obtain ⟨b, w⟩ := e
    simp only [storeBelow, List.all_cons, Bool.and_eq_true, decide_eq_true_eq] at hm ih
    simp only [storeWrite]
    split_ifs with h1 h2
    · simpa [storeBelow, ha] using hm
    · subst h2; simpa [storeBelow, ha] using hm.2
    · simpa [storeBelow, hm.1] using ih hm.2

/-- Nothing listed means no value anywhere. -/
@[simp] theorem storeRead_nil {α : Type} (a : Nat) : storeRead ([] : List (Nat × α)) a = none := rfl

@[simp] theorem readSlot_writeSlot (i j : Nat) (line : ScanLine) (s : State) :
    readSlot (writeSlot i line s) j = if j = i then some line else readSlot s j := by
  simp [readSlot, storeRead_write]

@[simp] theorem readEntry_writeSlot (i j : Nat) (line : ScanLine) (s : State) :
    readEntry (writeSlot i line s) j = readEntry s j := rfl

@[simp] theorem readEntry_writeEntry (i j : Nat) (b : Byte) (s : State) :
    readEntry (writeEntry i b s) j = if j = i then some b else readEntry s j := by
  simp [readEntry, storeRead_write]

@[simp] theorem readSlot_writeEntry (i j : Nat) (b : Byte) (s : State) :
    readSlot (writeEntry i b s) j = readSlot s j := rfl

/-- `writeSlot` keeps the canonical form. -/
theorem writeSlot_wf (i : Nat) (line : ScanLine) (s : State) (h : s.mem.wf = true) :
    (writeSlot i line s).mem.wf = true := by
  simp only [Memory.wf, Bool.and_eq_true] at h
  simp [Memory.wf, storeWf_write _ _ _ h.1, h.2]

/-- `writeEntry` keeps the canonical form. -/
theorem writeEntry_wf (i : Nat) (b : Byte) (s : State) (h : s.mem.wf = true) : (writeEntry i b s).mem.wf = true := by
  simp only [Memory.wf, Bool.and_eq_true] at h
  simp [Memory.wf, storeWf_write _ _ _ h.2, h.1]

/-- Reset memory is in canonical form. -/
theorem reset_mem_wf : State.reset.mem.wf = true := rfl

end Sys2Proof.Machine
end

