-- ==== Sys2Proof/Laws/Ops.lean ====
section
/-!
SUPPORT. One lemma per shared operation saying everything it can do: the arithmetic of indices and counters, the masks,
`PUSH`, `CLASSIFY`.
-/

namespace Sys2Proof.Machine

/-- The saturating increment is `min (v + 1) (2^w - 1)` (rule R13(e)). -/
theorem satInc_toNat {w : Nat} (v : BitVec w) : (satInc v).toNat = min (v.toNat + 1) (2 ^ w - 1) := by
  unfold satInc
  have hv := v.isLt
  split_ifs with h
  · subst h; simp [BitVec.toNat_allOnes]
  · have hne : v.toNat ≠ 2 ^ w - 1 := fun hc => h (BitVec.eq_of_toNat_eq (by simp [BitVec.toNat_allOnes, hc]))
    rcases w with _ | w
    · simp at hv hne; omega
    · have h1 : (1 : BitVec (w + 1)).toNat = 1 := by simp
      have hlt : v.toNat + 1 < 2 ^ (w + 1) := by omega
      rw [BitVec.toNat_add, h1, Nat.mod_eq_of_lt hlt]
      omega

theorem numLines_pos (c : Config) : 0 < c.numLines := Nat.two_pow_pos _

theorem numLines_le (c : Config) : c.numLines ≤ 16 := by
  have h : c.linesLog.val ≤ 4 := by omega
  exact Nat.pow_le_pow_right (by decide) h

theorem queueCap_pos (c : Config) : 0 < c.queueCap := Nat.two_pow_pos _

theorem queueCap_le (c : Config) : c.queueCap ≤ 128 := by
  have h : c.queueLog.val ≤ 7 := by omega
  exact Nat.pow_le_pow_right (by decide) h

/-- Masking by `QUEUE_CAP - 1` is reduction modulo `QUEUE_CAP` (rule R44). -/
theorem queuePos_eq_mod (c : Config) (i : Byte) : queuePos c i = i.toNat % c.queueCap := by
  have h := queueCap_le c
  have hp := queueCap_pos c
  simp only [queuePos, BitVec.toNat_and, BitVec.toNat_ofNat]
  rw [Nat.mod_eq_of_lt (by omega : c.queueCap - 1 < 2 ^ 8)]
  simp [Config.queueCap, Nat.and_two_pow_sub_one_eq_mod]

theorem queuePos_lt (c : Config) (i : Byte) : queuePos c i < c.queueCap := by
  rw [queuePos_eq_mod]; exact Nat.mod_lt _ (queueCap_pos c)

theorem slotOfIdx_lt (c : Config) (idx : Byte) : slotOfIdx c idx < c.numLines := Nat.mod_lt _ (numLines_pos c)

theorem nextSlot_toNat (c : Config) (wr : BitVec 4) : (nextSlot c wr).toNat = (wr.toNat + 1) % c.numLines := by
  have h1 := numLines_le c
  have h2 := Nat.mod_lt (wr.toNat + 1) (numLines_pos c)
  simp only [nextSlot, BitVec.toNat_ofNat]
  exact Nat.mod_eq_of_lt (by omega)

theorem nextSlot_lt (c : Config) (wr : BitVec 4) : (nextSlot c wr).toNat < c.numLines := by
  rw [nextSlot_toNat]; exact Nat.mod_lt _ (numLines_pos c)

/-- Bit `q` of the one-bit mask. -/
theorem maskBit_getLsbD (p q : Position) : (maskBit p).getLsbD q.val = decide (q = p) := by
  revert p q; decide

/-- Bit `q` after a fold: only bit `p` can change, and only to 1 (rule R87). -/
theorem foldMask_getLsbD (m : Mask) (p q : Position) (part bit : Bool) :
    (foldMask m p part bit).getLsbD q.val = (m.getLsbD q.val || (decide (q = p) && (part && bit))) := by
  unfold foldMask
  split_ifs with h
  · rw [BitVec.getLsbD_or, maskBit_getLsbD, h, Bool.and_true]
  · simp only [Bool.not_eq_true] at h
    simp [h]

/-- Everything `PUSH` can do (rules R107, R108). -/
theorem push_cases (b : Byte) (s : State) :
    (queueFull s = true ∧ push b s = countOverrun s) ∨
    (queueFull s = false ∧ push b s = advanceHead (writeEntry (queuePos s.cfg s.qHead) b s)) := by
  unfold push
  cases h : queueFull s <;> simp

theorem push_of_full (b : Byte) (s : State) (h : queueFull s = true) :
    push b s = countOverrun s := by simp [push, h]

theorem push_of_room (b : Byte) (s : State) (h : queueFull s = false) :
    push b s = advanceHead (writeEntry (queuePos s.cfg s.qHead) b s) := by simp [push, h]

@[simp] theorem readSlot_push (b : Byte) (s : State) (i : Nat) : readSlot (push b s) i = readSlot s i := by
  rcases push_cases b s with ⟨-, h⟩ | ⟨-, h⟩ <;> rw [h] <;> rfl

/-- `PUSH` keeps the canonical form of memory. -/
theorem push_wf (b : Byte) (s : State) (h : s.mem.wf = true) : (push b s).mem.wf = true := by
  rcases push_cases b s with ⟨-, hp⟩ | ⟨-, hp⟩
  · rw [hp]; exact h
  · rw [hp]; exact writeEntry_wf _ _ _ h

/-- Everything `CLASSIFY` can do (rule R99): exactly one of three outcomes. -/
theorem classify_cases (s : State) :
    (s.chgMask ≠ 0 ∧ s.nbMask ≠ 0 ∧ classify s = publishNormal s) ∨
    (s.nbMask = 0 ∧ classify s = noteBlank s) ∨
    (s.chgMask = 0 ∧ s.nbMask ≠ 0 ∧ classify s = s) := by
  have hc : chgAny s = true ↔ s.chgMask ≠ 0 := by simp [chgAny]
  have hn : nbAny s = true ↔ s.nbMask ≠ 0 := by simp [nbAny]
  unfold classify
  by_cases h1 : s.chgMask ≠ 0 <;> by_cases h2 : s.nbMask ≠ 0 <;> simp_all

end Sys2Proof.Machine
end

