-- ==== Sys2Proof/Laws/Fields.lean ====
section
/-!
SUPPORT. One lemma per field per composite update: what the reset, the accepted edge, the tick service and the
classification leave in each field, so that no proof unfolds them.
-/

namespace Sys2Proof.Machine

/-! `setTrace` writes the trace only. -/

@[simp] theorem setTrace_work (tr : List Byte) (s : State) : (setTrace tr s).work = s.work := rfl
@[simp] theorem setTrace_idleCnt (tr : List Byte) (s : State) : (setTrace tr s).idleCnt = s.idleCnt := rfl
@[simp] theorem setTrace_fsm (tr : List Byte) (s : State) : (setTrace tr s).fsm = s.fsm := rfl
@[simp] theorem setTrace_pos (tr : List Byte) (s : State) : (setTrace tr s).pos = s.pos := rfl
@[simp] theorem setTrace_chgMask (tr : List Byte) (s : State) : (setTrace tr s).chgMask = s.chgMask := rfl
@[simp] theorem setTrace_nbMask (tr : List Byte) (s : State) : (setTrace tr s).nbMask = s.nbMask := rfl
@[simp] theorem setTrace_idleRun (tr : List Byte) (s : State) : (setTrace tr s).idleRun = s.idleRun := rfl
@[simp] theorem setTrace_tsValid (tr : List Byte) (s : State) : (setTrace tr s).tsValid = s.tsValid := rfl
@[simp] theorem setTrace_lastTs (tr : List Byte) (s : State) : (setTrace tr s).lastTs = s.lastTs := rfl
@[simp] theorem setTrace_period (tr : List Byte) (s : State) : (setTrace tr s).period = s.period := rfl
@[simp] theorem setTrace_reload (tr : List Byte) (s : State) : (setTrace tr s).reload = s.reload := rfl
@[simp] theorem setTrace_tmrEn (tr : List Byte) (s : State) : (setTrace tr s).tmrEn = s.tmrEn := rfl
@[simp] theorem setTrace_tmrReload (tr : List Byte) (s : State) : (setTrace tr s).tmrReload = s.tmrReload := rfl
@[simp] theorem setTrace_tmrPending (tr : List Byte) (s : State) : (setTrace tr s).tmrPending = s.tmrPending := rfl
@[simp] theorem setTrace_gridQ (tr : List Byte) (s : State) : (setTrace tr s).gridQ = s.gridQ := rfl
@[simp] theorem setTrace_wdg (tr : List Byte) (s : State) : (setTrace tr s).wdg = s.wdg := rfl
@[simp] theorem setTrace_qHead (tr : List Byte) (s : State) : (setTrace tr s).qHead = s.qHead := rfl
@[simp] theorem setTrace_qTail (tr : List Byte) (s : State) : (setTrace tr s).qTail = s.qTail := rfl
@[simp] theorem setTrace_qOverrun (tr : List Byte) (s : State) : (setTrace tr s).qOverrun = s.qOverrun := rfl
@[simp] theorem setTrace_wr (tr : List Byte) (s : State) : (setTrace tr s).wr = s.wr := rfl
@[simp] theorem setTrace_fHex (tr : List Byte) (s : State) : (setTrace tr s).fHex = s.fHex := rfl
@[simp] theorem setTrace_fKey (tr : List Byte) (s : State) : (setTrace tr s).fKey = s.fKey := rfl
@[simp] theorem setTrace_mem (tr : List Byte) (s : State) : (setTrace tr s).mem = s.mem := rfl
@[simp] theorem setTrace_cfg (tr : List Byte) (s : State) : (setTrace tr s).cfg = s.cfg := rfl
@[simp] theorem setTrace_trace (tr : List Byte) (s : State) : (setTrace tr s).trace = tr := rfl
@[simp] theorem setTrace_handed (tr : List Byte) (s : State) : (setTrace tr s).handed = s.handed := rfl
@[simp] theorem setTrace_out (tr : List Byte) (s : State) : (setTrace tr s).out = s.out := rfl
@[simp] theorem setTrace_draw (tr : List Byte) (s : State) : (setTrace tr s).draw = s.draw := rfl

/-! `setHanded` writes the handed byte only. -/

@[simp] theorem setHanded_work (h : Option Byte) (s : State) : (setHanded h s).work = s.work := rfl
@[simp] theorem setHanded_idleCnt (h : Option Byte) (s : State) : (setHanded h s).idleCnt = s.idleCnt := rfl
@[simp] theorem setHanded_fsm (h : Option Byte) (s : State) : (setHanded h s).fsm = s.fsm := rfl
@[simp] theorem setHanded_pos (h : Option Byte) (s : State) : (setHanded h s).pos = s.pos := rfl
@[simp] theorem setHanded_chgMask (h : Option Byte) (s : State) : (setHanded h s).chgMask = s.chgMask := rfl
@[simp] theorem setHanded_nbMask (h : Option Byte) (s : State) : (setHanded h s).nbMask = s.nbMask := rfl
@[simp] theorem setHanded_idleRun (h : Option Byte) (s : State) : (setHanded h s).idleRun = s.idleRun := rfl
@[simp] theorem setHanded_tsValid (h : Option Byte) (s : State) : (setHanded h s).tsValid = s.tsValid := rfl
@[simp] theorem setHanded_lastTs (h : Option Byte) (s : State) : (setHanded h s).lastTs = s.lastTs := rfl
@[simp] theorem setHanded_period (h : Option Byte) (s : State) : (setHanded h s).period = s.period := rfl
@[simp] theorem setHanded_reload (h : Option Byte) (s : State) : (setHanded h s).reload = s.reload := rfl
@[simp] theorem setHanded_tmrEn (h : Option Byte) (s : State) : (setHanded h s).tmrEn = s.tmrEn := rfl
@[simp] theorem setHanded_tmrReload (h : Option Byte) (s : State) : (setHanded h s).tmrReload = s.tmrReload := rfl
@[simp] theorem setHanded_tmrPending (h : Option Byte) (s : State) : (setHanded h s).tmrPending = s.tmrPending := rfl
@[simp] theorem setHanded_gridQ (h : Option Byte) (s : State) : (setHanded h s).gridQ = s.gridQ := rfl
@[simp] theorem setHanded_wdg (h : Option Byte) (s : State) : (setHanded h s).wdg = s.wdg := rfl
@[simp] theorem setHanded_qHead (h : Option Byte) (s : State) : (setHanded h s).qHead = s.qHead := rfl
@[simp] theorem setHanded_qTail (h : Option Byte) (s : State) : (setHanded h s).qTail = s.qTail := rfl
@[simp] theorem setHanded_qOverrun (h : Option Byte) (s : State) : (setHanded h s).qOverrun = s.qOverrun := rfl
@[simp] theorem setHanded_wr (h : Option Byte) (s : State) : (setHanded h s).wr = s.wr := rfl
@[simp] theorem setHanded_fHex (h : Option Byte) (s : State) : (setHanded h s).fHex = s.fHex := rfl
@[simp] theorem setHanded_fKey (h : Option Byte) (s : State) : (setHanded h s).fKey = s.fKey := rfl
@[simp] theorem setHanded_mem (h : Option Byte) (s : State) : (setHanded h s).mem = s.mem := rfl
@[simp] theorem setHanded_cfg (h : Option Byte) (s : State) : (setHanded h s).cfg = s.cfg := rfl
@[simp] theorem setHanded_trace (h : Option Byte) (s : State) : (setHanded h s).trace = s.trace := rfl
@[simp] theorem setHanded_handed (h : Option Byte) (s : State) : (setHanded h s).handed = h := rfl
@[simp] theorem setHanded_out (h : Option Byte) (s : State) : (setHanded h s).out = s.out := rfl
@[simp] theorem setHanded_draw (h : Option Byte) (s : State) : (setHanded h s).draw = s.draw := rfl

/-! `GRD0` (rule R69). -/

@[simp] theorem lineLow_work (s : State) : (lineLow s).work = s.work := rfl
@[simp] theorem lineLow_idleCnt (s : State) : (lineLow s).idleCnt = s.idleCnt := rfl
@[simp] theorem lineLow_fsm (s : State) : (lineLow s).fsm = s.fsm := rfl
@[simp] theorem lineLow_pos (s : State) : (lineLow s).pos = s.pos := rfl
@[simp] theorem lineLow_chgMask (s : State) : (lineLow s).chgMask = s.chgMask := rfl
@[simp] theorem lineLow_nbMask (s : State) : (lineLow s).nbMask = s.nbMask := rfl
@[simp] theorem lineLow_idleRun (s : State) : (lineLow s).idleRun = s.idleRun := rfl
@[simp] theorem lineLow_tsValid (s : State) : (lineLow s).tsValid = s.tsValid := rfl
@[simp] theorem lineLow_lastTs (s : State) : (lineLow s).lastTs = s.lastTs := rfl
@[simp] theorem lineLow_period (s : State) : (lineLow s).period = s.period := rfl
@[simp] theorem lineLow_reload (s : State) : (lineLow s).reload = s.reload := rfl
@[simp] theorem lineLow_tmrEn (s : State) : (lineLow s).tmrEn = s.tmrEn := rfl
@[simp] theorem lineLow_tmrReload (s : State) : (lineLow s).tmrReload = s.tmrReload := rfl
@[simp] theorem lineLow_tmrPending (s : State) : (lineLow s).tmrPending = s.tmrPending := rfl
@[simp] theorem lineLow_gridQ (s : State) : (lineLow s).gridQ = false := rfl
@[simp] theorem lineLow_wdg (s : State) : (lineLow s).wdg = s.wdg := rfl
@[simp] theorem lineLow_qHead (s : State) : (lineLow s).qHead = s.qHead := rfl
@[simp] theorem lineLow_qTail (s : State) : (lineLow s).qTail = s.qTail := rfl
@[simp] theorem lineLow_qOverrun (s : State) : (lineLow s).qOverrun = s.qOverrun := rfl
@[simp] theorem lineLow_wr (s : State) : (lineLow s).wr = s.wr := rfl
@[simp] theorem lineLow_fHex (s : State) : (lineLow s).fHex = s.fHex := rfl
@[simp] theorem lineLow_fKey (s : State) : (lineLow s).fKey = s.fKey := rfl
@[simp] theorem lineLow_mem (s : State) : (lineLow s).mem = s.mem := rfl
@[simp] theorem lineLow_cfg (s : State) : (lineLow s).cfg = s.cfg := rfl
@[simp] theorem lineLow_trace (s : State) : (lineLow s).trace = s.trace := rfl
@[simp] theorem lineLow_handed (s : State) : (lineLow s).handed = s.handed := rfl
@[simp] theorem lineLow_out (s : State) : (lineLow s).out = s.out := rfl
@[simp] theorem lineLow_draw (s : State) : (lineLow s).draw = s.draw := rfl

/-! `GRD1`'s level (rule R70). -/

@[simp] theorem lineHigh_work (s : State) : (lineHigh s).work = s.work := rfl
@[simp] theorem lineHigh_idleCnt (s : State) : (lineHigh s).idleCnt = s.idleCnt := rfl
@[simp] theorem lineHigh_fsm (s : State) : (lineHigh s).fsm = s.fsm := rfl
@[simp] theorem lineHigh_pos (s : State) : (lineHigh s).pos = s.pos := rfl
@[simp] theorem lineHigh_chgMask (s : State) : (lineHigh s).chgMask = s.chgMask := rfl
@[simp] theorem lineHigh_nbMask (s : State) : (lineHigh s).nbMask = s.nbMask := rfl
@[simp] theorem lineHigh_idleRun (s : State) : (lineHigh s).idleRun = s.idleRun := rfl
@[simp] theorem lineHigh_tsValid (s : State) : (lineHigh s).tsValid = s.tsValid := rfl
@[simp] theorem lineHigh_lastTs (s : State) : (lineHigh s).lastTs = s.lastTs := rfl
@[simp] theorem lineHigh_period (s : State) : (lineHigh s).period = s.period := rfl
@[simp] theorem lineHigh_reload (s : State) : (lineHigh s).reload = s.reload := rfl
@[simp] theorem lineHigh_tmrEn (s : State) : (lineHigh s).tmrEn = s.tmrEn := rfl
@[simp] theorem lineHigh_tmrReload (s : State) : (lineHigh s).tmrReload = s.tmrReload := rfl
@[simp] theorem lineHigh_tmrPending (s : State) : (lineHigh s).tmrPending = s.tmrPending := rfl
@[simp] theorem lineHigh_gridQ (s : State) : (lineHigh s).gridQ = true := rfl
@[simp] theorem lineHigh_wdg (s : State) : (lineHigh s).wdg = s.wdg := rfl
@[simp] theorem lineHigh_qHead (s : State) : (lineHigh s).qHead = s.qHead := rfl
@[simp] theorem lineHigh_qTail (s : State) : (lineHigh s).qTail = s.qTail := rfl
@[simp] theorem lineHigh_qOverrun (s : State) : (lineHigh s).qOverrun = s.qOverrun := rfl
@[simp] theorem lineHigh_wr (s : State) : (lineHigh s).wr = s.wr := rfl
@[simp] theorem lineHigh_fHex (s : State) : (lineHigh s).fHex = s.fHex := rfl
@[simp] theorem lineHigh_fKey (s : State) : (lineHigh s).fKey = s.fKey := rfl
@[simp] theorem lineHigh_mem (s : State) : (lineHigh s).mem = s.mem := rfl
@[simp] theorem lineHigh_cfg (s : State) : (lineHigh s).cfg = s.cfg := rfl
@[simp] theorem lineHigh_trace (s : State) : (lineHigh s).trace = s.trace := rfl
@[simp] theorem lineHigh_handed (s : State) : (lineHigh s).handed = s.handed := rfl
@[simp] theorem lineHigh_out (s : State) : (lineHigh s).out = s.out := rfl
@[simp] theorem lineHigh_draw (s : State) : (lineHigh s).draw = s.draw := rfl

/-! The first serviced edge ever (rule R75). -/

@[simp] theorem firstEdge_work (now : Word) (s : State) : (firstEdge now s).work = s.work := rfl
@[simp] theorem firstEdge_idleCnt (now : Word) (s : State) : (firstEdge now s).idleCnt = s.idleCnt := rfl
@[simp] theorem firstEdge_fsm (now : Word) (s : State) : (firstEdge now s).fsm = .firstEdge := rfl
@[simp] theorem firstEdge_pos (now : Word) (s : State) : (firstEdge now s).pos = s.pos := rfl
@[simp] theorem firstEdge_chgMask (now : Word) (s : State) : (firstEdge now s).chgMask = s.chgMask := rfl
@[simp] theorem firstEdge_nbMask (now : Word) (s : State) : (firstEdge now s).nbMask = s.nbMask := rfl
@[simp] theorem firstEdge_idleRun (now : Word) (s : State) : (firstEdge now s).idleRun = s.idleRun := rfl
@[simp] theorem firstEdge_tsValid (now : Word) (s : State) : (firstEdge now s).tsValid = true := rfl
@[simp] theorem firstEdge_lastTs (now : Word) (s : State) : (firstEdge now s).lastTs = now := rfl
@[simp] theorem firstEdge_period (now : Word) (s : State) : (firstEdge now s).period = s.period := rfl
@[simp] theorem firstEdge_reload (now : Word) (s : State) : (firstEdge now s).reload = s.reload := rfl
@[simp] theorem firstEdge_tmrEn (now : Word) (s : State) : (firstEdge now s).tmrEn = s.tmrEn := rfl
@[simp] theorem firstEdge_tmrReload (now : Word) (s : State) : (firstEdge now s).tmrReload = s.tmrReload := rfl
@[simp] theorem firstEdge_tmrPending (now : Word) (s : State) : (firstEdge now s).tmrPending = s.tmrPending := rfl
@[simp] theorem firstEdge_gridQ (now : Word) (s : State) : (firstEdge now s).gridQ = s.gridQ := rfl
@[simp] theorem firstEdge_wdg (now : Word) (s : State) : (firstEdge now s).wdg = 0 := rfl
@[simp] theorem firstEdge_qHead (now : Word) (s : State) : (firstEdge now s).qHead = s.qHead := rfl
@[simp] theorem firstEdge_qTail (now : Word) (s : State) : (firstEdge now s).qTail = s.qTail := rfl
@[simp] theorem firstEdge_qOverrun (now : Word) (s : State) : (firstEdge now s).qOverrun = s.qOverrun := rfl
@[simp] theorem firstEdge_wr (now : Word) (s : State) : (firstEdge now s).wr = s.wr := rfl
@[simp] theorem firstEdge_fHex (now : Word) (s : State) : (firstEdge now s).fHex = s.fHex := rfl
@[simp] theorem firstEdge_fKey (now : Word) (s : State) : (firstEdge now s).fKey = s.fKey := rfl
@[simp] theorem firstEdge_mem (now : Word) (s : State) : (firstEdge now s).mem = s.mem := rfl
@[simp] theorem firstEdge_cfg (now : Word) (s : State) : (firstEdge now s).cfg = s.cfg := rfl
@[simp] theorem firstEdge_trace (now : Word) (s : State) : (firstEdge now s).trace = s.trace := rfl
@[simp] theorem firstEdge_handed (now : Word) (s : State) : (firstEdge now s).handed = s.handed := rfl
@[simp] theorem firstEdge_out (now : Word) (s : State) : (firstEdge now s).out = s.out := rfl
@[simp] theorem firstEdge_draw (now : Word) (s : State) : (firstEdge now s).draw = s.draw := rfl

/-! A later serviced edge (rule R76). -/

@[simp] theorem measured_work (now : Word) (s : State) : (measured now s).work = s.work := rfl
@[simp] theorem measured_idleCnt (now : Word) (s : State) : (measured now s).idleCnt = s.idleCnt := rfl
@[simp] theorem measured_fsm (now : Word) (s : State) : (measured now s).fsm = s.fsm := rfl
@[simp] theorem measured_pos (now : Word) (s : State) : (measured now s).pos = s.pos := rfl
@[simp] theorem measured_chgMask (now : Word) (s : State) : (measured now s).chgMask = s.chgMask := rfl
@[simp] theorem measured_nbMask (now : Word) (s : State) : (measured now s).nbMask = s.nbMask := rfl
@[simp] theorem measured_idleRun (now : Word) (s : State) : (measured now s).idleRun = s.idleRun := rfl
@[simp] theorem measured_tsValid (now : Word) (s : State) : (measured now s).tsValid = s.tsValid := rfl
@[simp] theorem measured_lastTs (now : Word) (s : State) : (measured now s).lastTs = now := rfl
@[simp] theorem measured_period (now : Word) (s : State) : (measured now s).period = now - s.lastTs := rfl
@[simp] theorem measured_reload (now : Word) (s : State) : (measured now s).reload = s.reload := rfl
@[simp] theorem measured_tmrEn (now : Word) (s : State) : (measured now s).tmrEn = s.tmrEn := rfl
@[simp] theorem measured_tmrReload (now : Word) (s : State) : (measured now s).tmrReload = s.tmrReload := rfl
@[simp] theorem measured_tmrPending (now : Word) (s : State) : (measured now s).tmrPending = s.tmrPending := rfl
@[simp] theorem measured_gridQ (now : Word) (s : State) : (measured now s).gridQ = s.gridQ := rfl
@[simp] theorem measured_wdg (now : Word) (s : State) : (measured now s).wdg = 0 := rfl
@[simp] theorem measured_qHead (now : Word) (s : State) : (measured now s).qHead = s.qHead := rfl
@[simp] theorem measured_qTail (now : Word) (s : State) : (measured now s).qTail = s.qTail := rfl
@[simp] theorem measured_qOverrun (now : Word) (s : State) : (measured now s).qOverrun = s.qOverrun := rfl
@[simp] theorem measured_wr (now : Word) (s : State) : (measured now s).wr = s.wr := rfl
@[simp] theorem measured_fHex (now : Word) (s : State) : (measured now s).fHex = s.fHex := rfl
@[simp] theorem measured_fKey (now : Word) (s : State) : (measured now s).fKey = s.fKey := rfl
@[simp] theorem measured_mem (now : Word) (s : State) : (measured now s).mem = s.mem := rfl
@[simp] theorem measured_cfg (now : Word) (s : State) : (measured now s).cfg = s.cfg := rfl
@[simp] theorem measured_trace (now : Word) (s : State) : (measured now s).trace = s.trace := rfl
@[simp] theorem measured_handed (now : Word) (s : State) : (measured now s).handed = s.handed := rfl
@[simp] theorem measured_out (now : Word) (s : State) : (measured now s).out = s.out := rfl
@[simp] theorem measured_draw (now : Word) (s : State) : (measured now s).draw = s.draw := rfl

/-! The end of a cycle's samples (rule R93). -/

@[simp] theorem samplingOver_work (s : State) : (samplingOver s).work = s.work := rfl
@[simp] theorem samplingOver_idleCnt (s : State) : (samplingOver s).idleCnt = s.idleCnt := rfl
@[simp] theorem samplingOver_fsm (s : State) : (samplingOver s).fsm = s.fsm := rfl
@[simp] theorem samplingOver_pos (s : State) : (samplingOver s).pos = 0 := rfl
@[simp] theorem samplingOver_chgMask (s : State) : (samplingOver s).chgMask = s.chgMask := rfl
@[simp] theorem samplingOver_nbMask (s : State) : (samplingOver s).nbMask = s.nbMask := rfl
@[simp] theorem samplingOver_idleRun (s : State) : (samplingOver s).idleRun = s.idleRun := rfl
@[simp] theorem samplingOver_tsValid (s : State) : (samplingOver s).tsValid = s.tsValid := rfl
@[simp] theorem samplingOver_lastTs (s : State) : (samplingOver s).lastTs = s.lastTs := rfl
@[simp] theorem samplingOver_period (s : State) : (samplingOver s).period = s.period := rfl
@[simp] theorem samplingOver_reload (s : State) : (samplingOver s).reload = s.reload := rfl
@[simp] theorem samplingOver_tmrEn (s : State) : (samplingOver s).tmrEn = false := rfl
@[simp] theorem samplingOver_tmrReload (s : State) : (samplingOver s).tmrReload = s.tmrReload := rfl
@[simp] theorem samplingOver_tmrPending (s : State) : (samplingOver s).tmrPending = s.tmrPending := rfl
@[simp] theorem samplingOver_gridQ (s : State) : (samplingOver s).gridQ = s.gridQ := rfl
@[simp] theorem samplingOver_wdg (s : State) : (samplingOver s).wdg = s.wdg := rfl
@[simp] theorem samplingOver_qHead (s : State) : (samplingOver s).qHead = s.qHead := rfl
@[simp] theorem samplingOver_qTail (s : State) : (samplingOver s).qTail = s.qTail := rfl
@[simp] theorem samplingOver_qOverrun (s : State) : (samplingOver s).qOverrun = s.qOverrun := rfl
@[simp] theorem samplingOver_wr (s : State) : (samplingOver s).wr = s.wr := rfl
@[simp] theorem samplingOver_fHex (s : State) : (samplingOver s).fHex = s.fHex := rfl
@[simp] theorem samplingOver_fKey (s : State) : (samplingOver s).fKey = s.fKey := rfl
@[simp] theorem samplingOver_mem (s : State) : (samplingOver s).mem = s.mem := rfl
@[simp] theorem samplingOver_cfg (s : State) : (samplingOver s).cfg = s.cfg := rfl
@[simp] theorem samplingOver_trace (s : State) : (samplingOver s).trace = s.trace := rfl
@[simp] theorem samplingOver_handed (s : State) : (samplingOver s).handed = s.handed := rfl
@[simp] theorem samplingOver_out (s : State) : (samplingOver s).out = s.out := rfl
@[simp] theorem samplingOver_draw (s : State) : (samplingOver s).draw = s.draw := rfl

/-! `MST` (rule R117). -/

@[simp] theorem tickWatchdog_work (s : State) : (tickWatchdog s).work = s.work := rfl
@[simp] theorem tickWatchdog_idleCnt (s : State) : (tickWatchdog s).idleCnt = s.idleCnt := rfl
@[simp] theorem tickWatchdog_fsm (s : State) : (tickWatchdog s).fsm = s.fsm := rfl
@[simp] theorem tickWatchdog_pos (s : State) : (tickWatchdog s).pos = s.pos := rfl
@[simp] theorem tickWatchdog_chgMask (s : State) : (tickWatchdog s).chgMask = s.chgMask := rfl
@[simp] theorem tickWatchdog_nbMask (s : State) : (tickWatchdog s).nbMask = s.nbMask := rfl
@[simp] theorem tickWatchdog_idleRun (s : State) : (tickWatchdog s).idleRun = s.idleRun := rfl
@[simp] theorem tickWatchdog_tsValid (s : State) : (tickWatchdog s).tsValid = s.tsValid := rfl
@[simp] theorem tickWatchdog_lastTs (s : State) : (tickWatchdog s).lastTs = s.lastTs := rfl
@[simp] theorem tickWatchdog_period (s : State) : (tickWatchdog s).period = s.period := rfl
@[simp] theorem tickWatchdog_reload (s : State) : (tickWatchdog s).reload = s.reload := rfl
@[simp] theorem tickWatchdog_tmrEn (s : State) : (tickWatchdog s).tmrEn = s.tmrEn := rfl
@[simp] theorem tickWatchdog_tmrReload (s : State) : (tickWatchdog s).tmrReload = s.tmrReload := rfl
@[simp] theorem tickWatchdog_tmrPending (s : State) : (tickWatchdog s).tmrPending = s.tmrPending := rfl
@[simp] theorem tickWatchdog_gridQ (s : State) : (tickWatchdog s).gridQ = s.gridQ := rfl
@[simp] theorem tickWatchdog_wdg (s : State) : (tickWatchdog s).wdg = satInc s.wdg := rfl
@[simp] theorem tickWatchdog_qHead (s : State) : (tickWatchdog s).qHead = s.qHead := rfl
@[simp] theorem tickWatchdog_qTail (s : State) : (tickWatchdog s).qTail = s.qTail := rfl
@[simp] theorem tickWatchdog_qOverrun (s : State) : (tickWatchdog s).qOverrun = s.qOverrun := rfl
@[simp] theorem tickWatchdog_wr (s : State) : (tickWatchdog s).wr = s.wr := rfl
@[simp] theorem tickWatchdog_fHex (s : State) : (tickWatchdog s).fHex = s.fHex := rfl
@[simp] theorem tickWatchdog_fKey (s : State) : (tickWatchdog s).fKey = s.fKey := rfl
@[simp] theorem tickWatchdog_mem (s : State) : (tickWatchdog s).mem = s.mem := rfl
@[simp] theorem tickWatchdog_cfg (s : State) : (tickWatchdog s).cfg = s.cfg := rfl
@[simp] theorem tickWatchdog_trace (s : State) : (tickWatchdog s).trace = s.trace := rfl
@[simp] theorem tickWatchdog_handed (s : State) : (tickWatchdog s).handed = s.handed := rfl
@[simp] theorem tickWatchdog_out (s : State) : (tickWatchdog s).out = s.out := rfl
@[simp] theorem tickWatchdog_draw (s : State) : (tickWatchdog s).draw = s.draw := rfl

/-! `FLG` (rule R121). -/

@[simp] theorem setFlags_work (f : Byte) (s : State) : (setFlags f s).work = s.work := rfl
@[simp] theorem setFlags_idleCnt (f : Byte) (s : State) : (setFlags f s).idleCnt = s.idleCnt := rfl
@[simp] theorem setFlags_fsm (f : Byte) (s : State) : (setFlags f s).fsm = s.fsm := rfl
@[simp] theorem setFlags_pos (f : Byte) (s : State) : (setFlags f s).pos = s.pos := rfl
@[simp] theorem setFlags_chgMask (f : Byte) (s : State) : (setFlags f s).chgMask = s.chgMask := rfl
@[simp] theorem setFlags_nbMask (f : Byte) (s : State) : (setFlags f s).nbMask = s.nbMask := rfl
@[simp] theorem setFlags_idleRun (f : Byte) (s : State) : (setFlags f s).idleRun = s.idleRun := rfl
@[simp] theorem setFlags_tsValid (f : Byte) (s : State) : (setFlags f s).tsValid = s.tsValid := rfl
@[simp] theorem setFlags_lastTs (f : Byte) (s : State) : (setFlags f s).lastTs = s.lastTs := rfl
@[simp] theorem setFlags_period (f : Byte) (s : State) : (setFlags f s).period = s.period := rfl
@[simp] theorem setFlags_reload (f : Byte) (s : State) : (setFlags f s).reload = s.reload := rfl
@[simp] theorem setFlags_tmrEn (f : Byte) (s : State) : (setFlags f s).tmrEn = s.tmrEn := rfl
@[simp] theorem setFlags_tmrReload (f : Byte) (s : State) : (setFlags f s).tmrReload = s.tmrReload := rfl
@[simp] theorem setFlags_tmrPending (f : Byte) (s : State) : (setFlags f s).tmrPending = s.tmrPending := rfl
@[simp] theorem setFlags_gridQ (f : Byte) (s : State) : (setFlags f s).gridQ = s.gridQ := rfl
@[simp] theorem setFlags_wdg (f : Byte) (s : State) : (setFlags f s).wdg = s.wdg := rfl
@[simp] theorem setFlags_qHead (f : Byte) (s : State) : (setFlags f s).qHead = s.qHead := rfl
@[simp] theorem setFlags_qTail (f : Byte) (s : State) : (setFlags f s).qTail = s.qTail := rfl
@[simp] theorem setFlags_qOverrun (f : Byte) (s : State) : (setFlags f s).qOverrun = s.qOverrun := rfl
@[simp] theorem setFlags_wr (f : Byte) (s : State) : (setFlags f s).wr = s.wr := rfl
@[simp] theorem setFlags_fHex (f : Byte) (s : State) : (setFlags f s).fHex = flagHex f := rfl
@[simp] theorem setFlags_fKey (f : Byte) (s : State) : (setFlags f s).fKey = flagKey f := rfl
@[simp] theorem setFlags_mem (f : Byte) (s : State) : (setFlags f s).mem = s.mem := rfl
@[simp] theorem setFlags_cfg (f : Byte) (s : State) : (setFlags f s).cfg = s.cfg := rfl
@[simp] theorem setFlags_trace (f : Byte) (s : State) : (setFlags f s).trace = s.trace := rfl
@[simp] theorem setFlags_handed (f : Byte) (s : State) : (setFlags f s).handed = s.handed := rfl
@[simp] theorem setFlags_out (f : Byte) (s : State) : (setFlags f s).out = s.out := rfl
@[simp] theorem setFlags_draw (f : Byte) (s : State) : (setFlags f s).draw = s.draw := rfl

/-! `RST` (rule R146). -/

@[simp] theorem resetBlock_work (s : State) : (resetBlock s).work = Vector.replicate 14 0 := rfl
@[simp] theorem resetBlock_idleCnt (s : State) : (resetBlock s).idleCnt = 0 := rfl
@[simp] theorem resetBlock_fsm (s : State) : (resetBlock s).fsm = .idleWait := rfl
@[simp] theorem resetBlock_pos (s : State) : (resetBlock s).pos = 0 := rfl
@[simp] theorem resetBlock_chgMask (s : State) : (resetBlock s).chgMask = 0 := rfl
@[simp] theorem resetBlock_nbMask (s : State) : (resetBlock s).nbMask = 0 := rfl
@[simp] theorem resetBlock_idleRun (s : State) : (resetBlock s).idleRun = false := rfl
@[simp] theorem resetBlock_tsValid (s : State) : (resetBlock s).tsValid = false := rfl
@[simp] theorem resetBlock_lastTs (s : State) : (resetBlock s).lastTs = 0 := rfl
@[simp] theorem resetBlock_period (s : State) : (resetBlock s).period = 0 := rfl
@[simp] theorem resetBlock_reload (s : State) : (resetBlock s).reload = 0 := rfl
@[simp] theorem resetBlock_tmrEn (s : State) : (resetBlock s).tmrEn = false := rfl
@[simp] theorem resetBlock_tmrReload (s : State) : (resetBlock s).tmrReload = 0 := rfl
@[simp] theorem resetBlock_tmrPending (s : State) : (resetBlock s).tmrPending = false := rfl
@[simp] theorem resetBlock_gridQ (s : State) : (resetBlock s).gridQ = true := rfl
@[simp] theorem resetBlock_wdg (s : State) : (resetBlock s).wdg = 0 := rfl
@[simp] theorem resetBlock_qHead (s : State) : (resetBlock s).qHead = 0 := rfl
@[simp] theorem resetBlock_qTail (s : State) : (resetBlock s).qTail = 0 := rfl
@[simp] theorem resetBlock_qOverrun (s : State) : (resetBlock s).qOverrun = 0 := rfl
@[simp] theorem resetBlock_wr (s : State) : (resetBlock s).wr = 0 := rfl
@[simp] theorem resetBlock_fHex (s : State) : (resetBlock s).fHex = false := rfl
@[simp] theorem resetBlock_fKey (s : State) : (resetBlock s).fKey = false := rfl
@[simp] theorem resetBlock_mem (s : State) : (resetBlock s).mem = { hist := [], qBuf := [] } := rfl
@[simp] theorem resetBlock_cfg (s : State) : (resetBlock s).cfg = s.cfg := rfl
@[simp] theorem resetBlock_trace (s : State) : (resetBlock s).trace = s.trace := rfl
@[simp] theorem resetBlock_handed (s : State) : (resetBlock s).handed = s.handed := rfl
@[simp] theorem resetBlock_out (s : State) : (resetBlock s).out = s.out := rfl
@[simp] theorem resetBlock_draw (s : State) : (resetBlock s).draw = s.draw := rfl

/-! The accepted path of `CS_EDGE` (rules R78 to R80). -/

@[simp] theorem startCycle_work (p : Word) (seg : Byte) (s : State) : (startCycle p seg s).work = s.work.set 0 seg := rfl
@[simp] theorem startCycle_idleCnt (p : Word) (seg : Byte) (s : State) : (startCycle p seg s).idleCnt = s.idleCnt := rfl
@[simp] theorem startCycle_fsm (p : Word) (seg : Byte) (s : State) : (startCycle p seg s).fsm = .sampling := rfl
@[simp] theorem startCycle_pos (p : Word) (seg : Byte) (s : State) : (startCycle p seg s).pos = 1 := rfl
@[simp] theorem startCycle_chgMask (p : Word) (seg : Byte) (s : State) : (startCycle p seg s).chgMask = foldMask 0 0 true (seg != s.work[0]) := rfl
@[simp] theorem startCycle_nbMask (p : Word) (seg : Byte) (s : State) : (startCycle p seg s).nbMask = foldMask 0 0 true (seg != 0) := rfl
@[simp] theorem startCycle_idleRun (p : Word) (seg : Byte) (s : State) : (startCycle p seg s).idleRun = s.idleRun := rfl
@[simp] theorem startCycle_tsValid (p : Word) (seg : Byte) (s : State) : (startCycle p seg s).tsValid = s.tsValid := rfl
@[simp] theorem startCycle_lastTs (p : Word) (seg : Byte) (s : State) : (startCycle p seg s).lastTs = s.lastTs := rfl
@[simp] theorem startCycle_period (p : Word) (seg : Byte) (s : State) : (startCycle p seg s).period = s.period := rfl
@[simp] theorem startCycle_reload (p : Word) (seg : Byte) (s : State) : (startCycle p seg s).reload = p / 14#32 := rfl
@[simp] theorem startCycle_tmrEn (p : Word) (seg : Byte) (s : State) : (startCycle p seg s).tmrEn = true := rfl
@[simp] theorem startCycle_tmrReload (p : Word) (seg : Byte) (s : State) : (startCycle p seg s).tmrReload = p / 14#32 + s.cfg.firstTickExtra := rfl
@[simp] theorem startCycle_tmrPending (p : Word) (seg : Byte) (s : State) : (startCycle p seg s).tmrPending = false := rfl
@[simp] theorem startCycle_gridQ (p : Word) (seg : Byte) (s : State) : (startCycle p seg s).gridQ = s.gridQ := rfl
@[simp] theorem startCycle_wdg (p : Word) (seg : Byte) (s : State) : (startCycle p seg s).wdg = s.wdg := rfl
@[simp] theorem startCycle_qHead (p : Word) (seg : Byte) (s : State) : (startCycle p seg s).qHead = s.qHead := rfl
@[simp] theorem startCycle_qTail (p : Word) (seg : Byte) (s : State) : (startCycle p seg s).qTail = s.qTail := rfl
@[simp] theorem startCycle_qOverrun (p : Word) (seg : Byte) (s : State) : (startCycle p seg s).qOverrun = s.qOverrun := rfl
@[simp] theorem startCycle_wr (p : Word) (seg : Byte) (s : State) : (startCycle p seg s).wr = s.wr := rfl
@[simp] theorem startCycle_fHex (p : Word) (seg : Byte) (s : State) : (startCycle p seg s).fHex = s.fHex := rfl
@[simp] theorem startCycle_fKey (p : Word) (seg : Byte) (s : State) : (startCycle p seg s).fKey = s.fKey := rfl
@[simp] theorem startCycle_mem (p : Word) (seg : Byte) (s : State) : (startCycle p seg s).mem = s.mem := rfl
@[simp] theorem startCycle_cfg (p : Word) (seg : Byte) (s : State) : (startCycle p seg s).cfg = s.cfg := rfl
@[simp] theorem startCycle_trace (p : Word) (seg : Byte) (s : State) : (startCycle p seg s).trace = s.trace := rfl
@[simp] theorem startCycle_handed (p : Word) (seg : Byte) (s : State) : (startCycle p seg s).handed = s.handed := rfl
@[simp] theorem startCycle_out (p : Word) (seg : Byte) (s : State) : (startCycle p seg s).out = s.out := rfl
@[simp] theorem startCycle_draw (p : Word) (seg : Byte) (s : State) : (startCycle p seg s).draw = s.draw := rfl

/-! `TTK` before the last position (rules R91, R92). -/

@[simp] theorem nextPosition_work (p : Position) (s : State) : (nextPosition p s).work = s.work := rfl
@[simp] theorem nextPosition_idleCnt (p : Position) (s : State) : (nextPosition p s).idleCnt = s.idleCnt := rfl
@[simp] theorem nextPosition_fsm (p : Position) (s : State) : (nextPosition p s).fsm = s.fsm := rfl
@[simp] theorem nextPosition_pos (p : Position) (s : State) : (nextPosition p s).pos = p + 1 := rfl
@[simp] theorem nextPosition_chgMask (p : Position) (s : State) : (nextPosition p s).chgMask = s.chgMask := rfl
@[simp] theorem nextPosition_nbMask (p : Position) (s : State) : (nextPosition p s).nbMask = s.nbMask := rfl
@[simp] theorem nextPosition_idleRun (p : Position) (s : State) : (nextPosition p s).idleRun = s.idleRun := rfl
@[simp] theorem nextPosition_tsValid (p : Position) (s : State) : (nextPosition p s).tsValid = s.tsValid := rfl
@[simp] theorem nextPosition_lastTs (p : Position) (s : State) : (nextPosition p s).lastTs = s.lastTs := rfl
@[simp] theorem nextPosition_period (p : Position) (s : State) : (nextPosition p s).period = s.period := rfl
@[simp] theorem nextPosition_reload (p : Position) (s : State) : (nextPosition p s).reload = (if correctionDue p then s.reload - s.cfg.corrStep else s.reload) := rfl
@[simp] theorem nextPosition_tmrEn (p : Position) (s : State) : (nextPosition p s).tmrEn = s.tmrEn := rfl
@[simp] theorem nextPosition_tmrReload (p : Position) (s : State) : (nextPosition p s).tmrReload = (if correctionDue p then s.reload - s.cfg.corrStep else s.reload) := rfl
@[simp] theorem nextPosition_tmrPending (p : Position) (s : State) : (nextPosition p s).tmrPending = false := rfl
@[simp] theorem nextPosition_gridQ (p : Position) (s : State) : (nextPosition p s).gridQ = s.gridQ := rfl
@[simp] theorem nextPosition_wdg (p : Position) (s : State) : (nextPosition p s).wdg = s.wdg := rfl
@[simp] theorem nextPosition_qHead (p : Position) (s : State) : (nextPosition p s).qHead = s.qHead := rfl
@[simp] theorem nextPosition_qTail (p : Position) (s : State) : (nextPosition p s).qTail = s.qTail := rfl
@[simp] theorem nextPosition_qOverrun (p : Position) (s : State) : (nextPosition p s).qOverrun = s.qOverrun := rfl
@[simp] theorem nextPosition_wr (p : Position) (s : State) : (nextPosition p s).wr = s.wr := rfl
@[simp] theorem nextPosition_fHex (p : Position) (s : State) : (nextPosition p s).fHex = s.fHex := rfl
@[simp] theorem nextPosition_fKey (p : Position) (s : State) : (nextPosition p s).fKey = s.fKey := rfl
@[simp] theorem nextPosition_mem (p : Position) (s : State) : (nextPosition p s).mem = s.mem := rfl
@[simp] theorem nextPosition_cfg (p : Position) (s : State) : (nextPosition p s).cfg = s.cfg := rfl
@[simp] theorem nextPosition_trace (p : Position) (s : State) : (nextPosition p s).trace = s.trace := rfl
@[simp] theorem nextPosition_handed (p : Position) (s : State) : (nextPosition p s).handed = s.handed := rfl
@[simp] theorem nextPosition_out (p : Position) (s : State) : (nextPosition p s).out = s.out := rfl
@[simp] theorem nextPosition_draw (p : Position) (s : State) : (nextPosition p s).draw = s.draw := rfl

/-! The NORMAL outcome (rule R100). -/

@[simp] theorem publishNormal_work (s : State) : (publishNormal s).work = s.work := by simp [publishNormal]
@[simp] theorem publishNormal_idleCnt (s : State) : (publishNormal s).idleCnt = 0 := by simp [publishNormal]
@[simp] theorem publishNormal_fsm (s : State) : (publishNormal s).fsm = s.fsm := by simp [publishNormal]
@[simp] theorem publishNormal_pos (s : State) : (publishNormal s).pos = s.pos := by simp [publishNormal]
@[simp] theorem publishNormal_chgMask (s : State) : (publishNormal s).chgMask = s.chgMask := by simp [publishNormal]
@[simp] theorem publishNormal_nbMask (s : State) : (publishNormal s).nbMask = s.nbMask := by simp [publishNormal]
@[simp] theorem publishNormal_idleRun (s : State) : (publishNormal s).idleRun = false := by simp [publishNormal]
@[simp] theorem publishNormal_tsValid (s : State) : (publishNormal s).tsValid = s.tsValid := by simp [publishNormal]
@[simp] theorem publishNormal_lastTs (s : State) : (publishNormal s).lastTs = s.lastTs := by simp [publishNormal]
@[simp] theorem publishNormal_period (s : State) : (publishNormal s).period = s.period := by simp [publishNormal]
@[simp] theorem publishNormal_reload (s : State) : (publishNormal s).reload = s.reload := by simp [publishNormal]
@[simp] theorem publishNormal_tmrEn (s : State) : (publishNormal s).tmrEn = s.tmrEn := by simp [publishNormal]
@[simp] theorem publishNormal_tmrReload (s : State) : (publishNormal s).tmrReload = s.tmrReload := by simp [publishNormal]
@[simp] theorem publishNormal_tmrPending (s : State) : (publishNormal s).tmrPending = s.tmrPending := by simp [publishNormal]
@[simp] theorem publishNormal_gridQ (s : State) : (publishNormal s).gridQ = s.gridQ := by simp [publishNormal]
@[simp] theorem publishNormal_wdg (s : State) : (publishNormal s).wdg = s.wdg := by simp [publishNormal]
@[simp] theorem publishNormal_qTail (s : State) : (publishNormal s).qTail = s.qTail := by simp [publishNormal]
@[simp] theorem publishNormal_wr (s : State) : (publishNormal s).wr = nextSlot s.cfg s.wr := by simp [publishNormal]
@[simp] theorem publishNormal_fHex (s : State) : (publishNormal s).fHex = s.fHex := by simp [publishNormal]
@[simp] theorem publishNormal_fKey (s : State) : (publishNormal s).fKey = s.fKey := by simp [publishNormal]
@[simp] theorem publishNormal_cfg (s : State) : (publishNormal s).cfg = s.cfg := by simp [publishNormal]
@[simp] theorem publishNormal_trace (s : State) : (publishNormal s).trace = s.trace := by simp [publishNormal]
@[simp] theorem publishNormal_handed (s : State) : (publishNormal s).handed = s.handed := by simp [publishNormal]
@[simp] theorem publishNormal_out (s : State) : (publishNormal s).out = s.out := by simp [publishNormal]
@[simp] theorem publishNormal_draw (s : State) : (publishNormal s).draw = s.draw := by simp [publishNormal]

/-! The BLANK outcome (rule R101). -/

@[simp] theorem noteBlank_work (s : State) : (noteBlank s).work = s.work := by unfold noteBlank; split <;> simp_all
@[simp] theorem noteBlank_idleCnt (s : State) : (noteBlank s).idleCnt = (if s.idleRun then s.idleCnt + 1 else s.idleCnt) := by unfold noteBlank; split <;> simp_all
@[simp] theorem noteBlank_fsm (s : State) : (noteBlank s).fsm = s.fsm := by unfold noteBlank; split <;> simp_all
@[simp] theorem noteBlank_pos (s : State) : (noteBlank s).pos = s.pos := by unfold noteBlank; split <;> simp_all
@[simp] theorem noteBlank_chgMask (s : State) : (noteBlank s).chgMask = s.chgMask := by unfold noteBlank; split <;> simp_all
@[simp] theorem noteBlank_nbMask (s : State) : (noteBlank s).nbMask = s.nbMask := by unfold noteBlank; split <;> simp_all
@[simp] theorem noteBlank_idleRun (s : State) : (noteBlank s).idleRun = true := by unfold noteBlank; split <;> simp_all
@[simp] theorem noteBlank_tsValid (s : State) : (noteBlank s).tsValid = s.tsValid := by unfold noteBlank; split <;> simp_all
@[simp] theorem noteBlank_lastTs (s : State) : (noteBlank s).lastTs = s.lastTs := by unfold noteBlank; split <;> simp_all
@[simp] theorem noteBlank_period (s : State) : (noteBlank s).period = s.period := by unfold noteBlank; split <;> simp_all
@[simp] theorem noteBlank_reload (s : State) : (noteBlank s).reload = s.reload := by unfold noteBlank; split <;> simp_all
@[simp] theorem noteBlank_tmrEn (s : State) : (noteBlank s).tmrEn = s.tmrEn := by unfold noteBlank; split <;> simp_all
@[simp] theorem noteBlank_tmrReload (s : State) : (noteBlank s).tmrReload = s.tmrReload := by unfold noteBlank; split <;> simp_all
@[simp] theorem noteBlank_tmrPending (s : State) : (noteBlank s).tmrPending = s.tmrPending := by unfold noteBlank; split <;> simp_all
@[simp] theorem noteBlank_gridQ (s : State) : (noteBlank s).gridQ = s.gridQ := by unfold noteBlank; split <;> simp_all
@[simp] theorem noteBlank_wdg (s : State) : (noteBlank s).wdg = s.wdg := by unfold noteBlank; split <;> simp_all
@[simp] theorem noteBlank_qTail (s : State) : (noteBlank s).qTail = s.qTail := by unfold noteBlank; split <;> simp_all
@[simp] theorem noteBlank_wr (s : State) : (noteBlank s).wr = s.wr := by unfold noteBlank; split <;> simp_all
@[simp] theorem noteBlank_fHex (s : State) : (noteBlank s).fHex = s.fHex := by unfold noteBlank; split <;> simp_all
@[simp] theorem noteBlank_fKey (s : State) : (noteBlank s).fKey = s.fKey := by unfold noteBlank; split <;> simp_all
@[simp] theorem noteBlank_cfg (s : State) : (noteBlank s).cfg = s.cfg := by unfold noteBlank; split <;> simp_all
@[simp] theorem noteBlank_trace (s : State) : (noteBlank s).trace = s.trace := by unfold noteBlank; split <;> simp_all
@[simp] theorem noteBlank_handed (s : State) : (noteBlank s).handed = s.handed := by unfold noteBlank; split <;> simp_all
@[simp] theorem noteBlank_out (s : State) : (noteBlank s).out = s.out := by unfold noteBlank; split <;> simp_all
@[simp] theorem noteBlank_draw (s : State) : (noteBlank s).draw = s.draw := by unfold noteBlank; split <;> simp_all

/-! `CLASSIFY` (rule R97) leaves these. -/

@[simp] theorem classify_work (s : State) : (classify s).work = s.work := by rcases classify_cases s with ⟨-, -, h⟩ | ⟨-, h⟩ | ⟨-, -, h⟩ <;> rw [h] <;> simp
@[simp] theorem classify_fsm (s : State) : (classify s).fsm = s.fsm := by rcases classify_cases s with ⟨-, -, h⟩ | ⟨-, h⟩ | ⟨-, -, h⟩ <;> rw [h] <;> simp
@[simp] theorem classify_pos (s : State) : (classify s).pos = s.pos := by rcases classify_cases s with ⟨-, -, h⟩ | ⟨-, h⟩ | ⟨-, -, h⟩ <;> rw [h] <;> simp
@[simp] theorem classify_chgMask (s : State) : (classify s).chgMask = s.chgMask := by rcases classify_cases s with ⟨-, -, h⟩ | ⟨-, h⟩ | ⟨-, -, h⟩ <;> rw [h] <;> simp
@[simp] theorem classify_nbMask (s : State) : (classify s).nbMask = s.nbMask := by rcases classify_cases s with ⟨-, -, h⟩ | ⟨-, h⟩ | ⟨-, -, h⟩ <;> rw [h] <;> simp
@[simp] theorem classify_tsValid (s : State) : (classify s).tsValid = s.tsValid := by rcases classify_cases s with ⟨-, -, h⟩ | ⟨-, h⟩ | ⟨-, -, h⟩ <;> rw [h] <;> simp
@[simp] theorem classify_lastTs (s : State) : (classify s).lastTs = s.lastTs := by rcases classify_cases s with ⟨-, -, h⟩ | ⟨-, h⟩ | ⟨-, -, h⟩ <;> rw [h] <;> simp
@[simp] theorem classify_period (s : State) : (classify s).period = s.period := by rcases classify_cases s with ⟨-, -, h⟩ | ⟨-, h⟩ | ⟨-, -, h⟩ <;> rw [h] <;> simp
@[simp] theorem classify_reload (s : State) : (classify s).reload = s.reload := by rcases classify_cases s with ⟨-, -, h⟩ | ⟨-, h⟩ | ⟨-, -, h⟩ <;> rw [h] <;> simp
@[simp] theorem classify_tmrEn (s : State) : (classify s).tmrEn = s.tmrEn := by rcases classify_cases s with ⟨-, -, h⟩ | ⟨-, h⟩ | ⟨-, -, h⟩ <;> rw [h] <;> simp
@[simp] theorem classify_tmrReload (s : State) : (classify s).tmrReload = s.tmrReload := by rcases classify_cases s with ⟨-, -, h⟩ | ⟨-, h⟩ | ⟨-, -, h⟩ <;> rw [h] <;> simp
@[simp] theorem classify_tmrPending (s : State) : (classify s).tmrPending = s.tmrPending := by rcases classify_cases s with ⟨-, -, h⟩ | ⟨-, h⟩ | ⟨-, -, h⟩ <;> rw [h] <;> simp
@[simp] theorem classify_gridQ (s : State) : (classify s).gridQ = s.gridQ := by rcases classify_cases s with ⟨-, -, h⟩ | ⟨-, h⟩ | ⟨-, -, h⟩ <;> rw [h] <;> simp
@[simp] theorem classify_wdg (s : State) : (classify s).wdg = s.wdg := by rcases classify_cases s with ⟨-, -, h⟩ | ⟨-, h⟩ | ⟨-, -, h⟩ <;> rw [h] <;> simp
@[simp] theorem classify_qTail (s : State) : (classify s).qTail = s.qTail := by rcases classify_cases s with ⟨-, -, h⟩ | ⟨-, h⟩ | ⟨-, -, h⟩ <;> rw [h] <;> simp
@[simp] theorem classify_fHex (s : State) : (classify s).fHex = s.fHex := by rcases classify_cases s with ⟨-, -, h⟩ | ⟨-, h⟩ | ⟨-, -, h⟩ <;> rw [h] <;> simp
@[simp] theorem classify_fKey (s : State) : (classify s).fKey = s.fKey := by rcases classify_cases s with ⟨-, -, h⟩ | ⟨-, h⟩ | ⟨-, -, h⟩ <;> rw [h] <;> simp
@[simp] theorem classify_cfg (s : State) : (classify s).cfg = s.cfg := by rcases classify_cases s with ⟨-, -, h⟩ | ⟨-, h⟩ | ⟨-, -, h⟩ <;> rw [h] <;> simp
@[simp] theorem classify_trace (s : State) : (classify s).trace = s.trace := by rcases classify_cases s with ⟨-, -, h⟩ | ⟨-, h⟩ | ⟨-, -, h⟩ <;> rw [h] <;> simp
@[simp] theorem classify_handed (s : State) : (classify s).handed = s.handed := by rcases classify_cases s with ⟨-, -, h⟩ | ⟨-, h⟩ | ⟨-, -, h⟩ <;> rw [h] <;> simp
@[simp] theorem classify_out (s : State) : (classify s).out = s.out := by rcases classify_cases s with ⟨-, -, h⟩ | ⟨-, h⟩ | ⟨-, -, h⟩ <;> rw [h] <;> simp
@[simp] theorem classify_draw (s : State) : (classify s).draw = s.draw := by rcases classify_cases s with ⟨-, -, h⟩ | ⟨-, h⟩ | ⟨-, -, h⟩ <;> rw [h] <;> simp

/-! The last `TTK` of a cycle (rule R93). -/

@[simp] theorem finishCycle_work (s : State) : (finishCycle s).work = s.work := by simp [finishCycle]
@[simp] theorem finishCycle_fsm (s : State) : (finishCycle s).fsm = .idleWait := by simp [finishCycle]
@[simp] theorem finishCycle_pos (s : State) : (finishCycle s).pos = 0 := by simp [finishCycle]
@[simp] theorem finishCycle_chgMask (s : State) : (finishCycle s).chgMask = s.chgMask := by simp [finishCycle]
@[simp] theorem finishCycle_nbMask (s : State) : (finishCycle s).nbMask = s.nbMask := by simp [finishCycle]
@[simp] theorem finishCycle_tsValid (s : State) : (finishCycle s).tsValid = s.tsValid := by simp [finishCycle]
@[simp] theorem finishCycle_lastTs (s : State) : (finishCycle s).lastTs = s.lastTs := by simp [finishCycle]
@[simp] theorem finishCycle_period (s : State) : (finishCycle s).period = s.period := by simp [finishCycle]
@[simp] theorem finishCycle_reload (s : State) : (finishCycle s).reload = s.reload := by simp [finishCycle]
@[simp] theorem finishCycle_tmrEn (s : State) : (finishCycle s).tmrEn = false := by simp [finishCycle]
@[simp] theorem finishCycle_tmrReload (s : State) : (finishCycle s).tmrReload = s.tmrReload := by simp [finishCycle]
@[simp] theorem finishCycle_tmrPending (s : State) : (finishCycle s).tmrPending = s.tmrPending := by simp [finishCycle]
@[simp] theorem finishCycle_gridQ (s : State) : (finishCycle s).gridQ = s.gridQ := by simp [finishCycle]
@[simp] theorem finishCycle_wdg (s : State) : (finishCycle s).wdg = s.wdg := by simp [finishCycle]
@[simp] theorem finishCycle_qTail (s : State) : (finishCycle s).qTail = s.qTail := by simp [finishCycle]
@[simp] theorem finishCycle_fHex (s : State) : (finishCycle s).fHex = s.fHex := by simp [finishCycle]
@[simp] theorem finishCycle_fKey (s : State) : (finishCycle s).fKey = s.fKey := by simp [finishCycle]
@[simp] theorem finishCycle_cfg (s : State) : (finishCycle s).cfg = s.cfg := by simp [finishCycle]
@[simp] theorem finishCycle_trace (s : State) : (finishCycle s).trace = s.trace := by simp [finishCycle]
@[simp] theorem finishCycle_handed (s : State) : (finishCycle s).handed = s.handed := by simp [finishCycle]
@[simp] theorem finishCycle_out (s : State) : (finishCycle s).out = s.out := by simp [finishCycle]
@[simp] theorem finishCycle_draw (s : State) : (finishCycle s).draw = s.draw := by simp [finishCycle]

/-- The fields the last `TTK` hands to the classification unchanged (rule R93). -/
theorem finishCycle_classified (s : State) :
    (finishCycle s).mem = (classify (samplingOver s)).mem ∧
    (finishCycle s).qHead = (classify (samplingOver s)).qHead ∧
    (finishCycle s).qOverrun = (classify (samplingOver s)).qOverrun ∧
    (finishCycle s).wr = (classify (samplingOver s)).wr ∧
    (finishCycle s).idleCnt = (classify (samplingOver s)).idleCnt ∧
    (finishCycle s).idleRun = (classify (samplingOver s)).idleRun := ⟨rfl, rfl, rfl, rfl, rfl, rfl⟩
/-! The updates that leave both arrays leave every read of them. -/

@[simp] theorem readSlot_answer (r : Result) (s : State) (i : Nat) : readSlot (answer r s) i = readSlot s i := rfl
@[simp] theorem readEntry_answer (r : Result) (s : State) (i : Nat) : readEntry (answer r s) i = readEntry s i := rfl
@[simp] theorem readSlot_deliver (r : Result) (s : State) (i : Nat) : readSlot (deliver r s) i = readSlot s i := rfl
@[simp] theorem readEntry_deliver (r : Result) (s : State) (i : Nat) : readEntry (deliver r s) i = readEntry s i := rfl
@[simp] theorem readSlot_timerSetPeriod (v : Word) (s : State) (i : Nat) : readSlot (timerSetPeriod v s) i = readSlot s i := rfl
@[simp] theorem readEntry_timerSetPeriod (v : Word) (s : State) (i : Nat) : readEntry (timerSetPeriod v s) i = readEntry s i := rfl
@[simp] theorem readSlot_timerEnable (s : State) (i : Nat) : readSlot (timerEnable s) i = readSlot s i := rfl
@[simp] theorem readEntry_timerEnable (s : State) (i : Nat) : readEntry (timerEnable s) i = readEntry s i := rfl
@[simp] theorem readSlot_timerDisable (s : State) (i : Nat) : readSlot (timerDisable s) i = readSlot s i := rfl
@[simp] theorem readEntry_timerDisable (s : State) (i : Nat) : readEntry (timerDisable s) i = readEntry s i := rfl
@[simp] theorem readSlot_timerExpire (s : State) (i : Nat) : readSlot (timerExpire s) i = readSlot s i := rfl
@[simp] theorem readEntry_timerExpire (s : State) (i : Nat) : readEntry (timerExpire s) i = readEntry s i := rfl
@[simp] theorem readSlot_sample (p : Position) (v : Byte) (s : State) (i : Nat) : readSlot (sample p v s) i = readSlot s i := rfl
@[simp] theorem readEntry_sample (p : Position) (v : Byte) (s : State) (i : Nat) : readEntry (sample p v s) i = readEntry s i := rfl
@[simp] theorem readSlot_countOverrun (s : State) (i : Nat) : readSlot (countOverrun s) i = readSlot s i := rfl
@[simp] theorem readEntry_countOverrun (s : State) (i : Nat) : readEntry (countOverrun s) i = readEntry s i := rfl
@[simp] theorem readSlot_advanceHead (s : State) (i : Nat) : readSlot (advanceHead s) i = readSlot s i := rfl
@[simp] theorem readEntry_advanceHead (s : State) (i : Nat) : readEntry (advanceHead s) i = readEntry s i := rfl
@[simp] theorem readSlot_advanceTail (s : State) (i : Nat) : readSlot (advanceTail s) i = readSlot s i := rfl
@[simp] theorem readEntry_advanceTail (s : State) (i : Nat) : readEntry (advanceTail s) i = readEntry s i := rfl
@[simp] theorem readSlot_lineLow (s : State) (i : Nat) : readSlot (lineLow s) i = readSlot s i := rfl
@[simp] theorem readEntry_lineLow (s : State) (i : Nat) : readEntry (lineLow s) i = readEntry s i := rfl
@[simp] theorem readSlot_lineHigh (s : State) (i : Nat) : readSlot (lineHigh s) i = readSlot s i := rfl
@[simp] theorem readEntry_lineHigh (s : State) (i : Nat) : readEntry (lineHigh s) i = readEntry s i := rfl
@[simp] theorem readSlot_firstEdge (now : Word) (s : State) (i : Nat) : readSlot (firstEdge now s) i = readSlot s i := rfl
@[simp] theorem readEntry_firstEdge (now : Word) (s : State) (i : Nat) : readEntry (firstEdge now s) i = readEntry s i := rfl
@[simp] theorem readSlot_measured (now : Word) (s : State) (i : Nat) : readSlot (measured now s) i = readSlot s i := rfl
@[simp] theorem readEntry_measured (now : Word) (s : State) (i : Nat) : readEntry (measured now s) i = readEntry s i := rfl
@[simp] theorem readSlot_startCycle (p : Word) (seg : Byte) (s : State) (i : Nat) : readSlot (startCycle p seg s) i = readSlot s i := rfl
@[simp] theorem readEntry_startCycle (p : Word) (seg : Byte) (s : State) (i : Nat) : readEntry (startCycle p seg s) i = readEntry s i := rfl
@[simp] theorem readSlot_nextPosition (p : Position) (s : State) (i : Nat) : readSlot (nextPosition p s) i = readSlot s i := rfl
@[simp] theorem readEntry_nextPosition (p : Position) (s : State) (i : Nat) : readEntry (nextPosition p s) i = readEntry s i := rfl
@[simp] theorem readSlot_samplingOver (s : State) (i : Nat) : readSlot (samplingOver s) i = readSlot s i := rfl
@[simp] theorem readEntry_samplingOver (s : State) (i : Nat) : readEntry (samplingOver s) i = readEntry s i := rfl
@[simp] theorem readSlot_tickWatchdog (s : State) (i : Nat) : readSlot (tickWatchdog s) i = readSlot s i := rfl
@[simp] theorem readEntry_tickWatchdog (s : State) (i : Nat) : readEntry (tickWatchdog s) i = readEntry s i := rfl
@[simp] theorem readSlot_setFlags (f : Byte) (s : State) (i : Nat) : readSlot (setFlags f s) i = readSlot s i := rfl
@[simp] theorem readEntry_setFlags (f : Byte) (s : State) (i : Nat) : readEntry (setFlags f s) i = readEntry s i := rfl
@[simp] theorem readSlot_setTrace (tr : List Byte) (s : State) (i : Nat) : readSlot (setTrace tr s) i = readSlot s i := rfl
@[simp] theorem readEntry_setTrace (tr : List Byte) (s : State) (i : Nat) : readEntry (setTrace tr s) i = readEntry s i := rfl
@[simp] theorem readSlot_setHanded (h : Option Byte) (s : State) (i : Nat) : readSlot (setHanded h s) i = readSlot s i := rfl
@[simp] theorem readEntry_setHanded (h : Option Byte) (s : State) (i : Nat) : readEntry (setHanded h s) i = readEntry s i := rfl

/-! The updates that leave both queue indices leave the count. -/

@[simp] theorem queueCount_answer (r : Result) (s : State) : queueCount (answer r s) = queueCount s := rfl
@[simp] theorem queueCount_deliver (r : Result) (s : State) : queueCount (deliver r s) = queueCount s := rfl
@[simp] theorem queueCount_timerSetPeriod (v : Word) (s : State) : queueCount (timerSetPeriod v s) = queueCount s := rfl
@[simp] theorem queueCount_timerEnable (s : State) : queueCount (timerEnable s) = queueCount s := rfl
@[simp] theorem queueCount_timerDisable (s : State) : queueCount (timerDisable s) = queueCount s := rfl
@[simp] theorem queueCount_timerExpire (s : State) : queueCount (timerExpire s) = queueCount s := rfl
@[simp] theorem queueCount_sample (p : Position) (v : Byte) (s : State) : queueCount (sample p v s) = queueCount s := rfl
@[simp] theorem queueCount_countOverrun (s : State) : queueCount (countOverrun s) = queueCount s := rfl
@[simp] theorem queueCount_lineLow (s : State) : queueCount (lineLow s) = queueCount s := rfl
@[simp] theorem queueCount_lineHigh (s : State) : queueCount (lineHigh s) = queueCount s := rfl
@[simp] theorem queueCount_firstEdge (now : Word) (s : State) : queueCount (firstEdge now s) = queueCount s := rfl
@[simp] theorem queueCount_measured (now : Word) (s : State) : queueCount (measured now s) = queueCount s := rfl
@[simp] theorem queueCount_startCycle (p : Word) (seg : Byte) (s : State) : queueCount (startCycle p seg s) = queueCount s := rfl
@[simp] theorem queueCount_nextPosition (p : Position) (s : State) : queueCount (nextPosition p s) = queueCount s := rfl
@[simp] theorem queueCount_samplingOver (s : State) : queueCount (samplingOver s) = queueCount s := rfl
@[simp] theorem queueCount_tickWatchdog (s : State) : queueCount (tickWatchdog s) = queueCount s := rfl
@[simp] theorem queueCount_setFlags (f : Byte) (s : State) : queueCount (setFlags f s) = queueCount s := rfl
@[simp] theorem queueCount_setTrace (tr : List Byte) (s : State) : queueCount (setTrace tr s) = queueCount s := rfl
@[simp] theorem queueCount_setHanded (h : Option Byte) (s : State) : queueCount (setHanded h s) = queueCount s := rfl

end Sys2Proof.Machine
end

