-- ==== Sys2Proof/Laws/Meanings.lean ====
section
/-!
SUPPORT. One inversion lemma per meaning that branches: "it answers exactly one of these". Later proofs cite these and the
field lemmas, and unfold no meaning.
-/

namespace Sys2Proof.Machine

/-- Everything `GRD1` can do (rules R70 to R72): no serviced edge; the first ever; noise; an accepted edge. -/
theorem execGrd1_cases (now : Word) (seg : Byte) (s : State) :
    ((s.gridQ = true ∨ s.fsm = .sampling) ∧ execGrd1 now seg s = .next (deliver .nothing (lineHigh s))) ∨
    (s.gridQ = false ∧ s.fsm ≠ .sampling ∧ s.tsValid = false ∧
      execGrd1 now seg s = .next (deliver .nothing (firstEdge now (lineHigh s)))) ∨
    (s.gridQ = false ∧ s.fsm ≠ .sampling ∧ s.tsValid = true ∧ (now - s.lastTs).toNat < s.cfg.periodFloor.toNat ∧
      execGrd1 now seg s = .next (deliver .nothing (measured now (lineHigh s)))) ∨
    (s.gridQ = false ∧ s.fsm ≠ .sampling ∧ s.tsValid = true ∧ s.cfg.periodFloor.toNat ≤ (now - s.lastTs).toNat ∧
      execGrd1 now seg s = .next (deliver .nothing (startCycle (now - s.lastTs) seg (measured now (lineHigh s))))) := by
  by_cases hg : s.gridQ = true
  · left; exact ⟨.inl hg, by simp [execGrd1, risingEdge, hg]⟩
  by_cases hf : s.fsm = .sampling
  · left; exact ⟨.inr hf, by simp [execGrd1, edgeMasked, hf]⟩
  have he : (risingEdge s && !edgeMasked s) = true := by simp [risingEdge, edgeMasked, hg, hf]
  right
  by_cases ht : s.tsValid = true
  · right
    by_cases hp : now - s.lastTs < s.cfg.periodFloor
    · left
      refine ⟨by simpa using hg, hf, ht, hp, ?_⟩
      simp only [execGrd1, he, if_true]
      simp [csEdge, ht, hp]
    · right
      refine ⟨by simpa using hg, hf, ht, Nat.le_of_not_lt hp, ?_⟩
      simp only [execGrd1, he, if_true]
      simp [csEdge, ht, hp]
  · left
    refine ⟨by simpa using hg, hf, by simpa using ht, ?_⟩
    simp only [execGrd1, he, if_true]
    simp [csEdge, ht]

/-- Everything `TTK` can do (rule R89): no step; the last sample of a cycle; any other sample. -/
theorem execTtk_cases (seg : Byte) (s : State) :
    ((s.tmrEn = false ∨ s.tmrPending = false) ∧ execTtk seg s = .refused .ttkDisabled) ∨
    (s.tmrEn = true ∧ s.tmrPending = true ∧ s.pos = 13 ∧
      execTtk seg s = .next (deliver .nothing (finishCycle (sample 13 seg s)))) ∨
    (s.tmrEn = true ∧ s.tmrPending = true ∧ s.pos ≠ 13 ∧
      execTtk seg s = .next (deliver .nothing (nextPosition s.pos (sample s.pos seg s)))) := by
  unfold execTtk ttkEnabled
  by_cases h1 : s.tmrEn = true <;> by_cases h2 : s.tmrPending = true <;> by_cases h3 : s.pos = 13 <;> simp [h1, h2, h3]

/-- Everything `POP` can do (rule R109). -/
theorem execPop_cases (s : State) :
    (s.qHead = s.qTail ∧ execPop s = .next (answer .popNone s)) ∨
    (s.qHead ≠ s.qTail ∧ eventReserved (readEvent s (queuePos s.cfg s.qTail)) = true ∧
      execPop s = .fault (.reservedEvent (readEvent s (queuePos s.cfg s.qTail)))) ∨
    (s.qHead ≠ s.qTail ∧ eventReserved (readEvent s (queuePos s.cfg s.qTail)) = false ∧
      execPop s = .next (deliver (.popSome (readEvent s (queuePos s.cfg s.qTail))) (advanceTail s))) := by
  unfold execPop queueEmpty
  by_cases h1 : s.qHead = s.qTail <;> by_cases h2 : eventReserved (readEvent s (queuePos s.cfg s.qTail)) = true <;>
    simp [h1, h2]

theorem execTex_cases (s : State) :
    (s.tmrEn = true ∧ execTex s = .next (deliver .nothing (timerExpire s))) ∨
    (s.tmrEn = false ∧ execTex s = .refused .texDisabled) := by
  unfold execTex texEnabled
  by_cases h : s.tmrEn = true <;> simp [h]

theorem execSrd_cases (idx k : Byte) (s : State) :
    (k.toNat ≤ 14 ∧ execSrd idx k s = .next (answer (.field (readField s (slotOfIdx s.cfg idx) k)) s)) ∨
    (14 < k.toNat ∧ execSrd idx k s = .refused (.srdFieldOutOfRange k)) := by
  unfold execSrd srdEnabled
  by_cases h : k.toNat ≤ 14
  · simp [h]
  · simp [h]; omega

theorem execDrd_cases (k : Byte) (s : State) :
    (k.toNat ≤ 3 ∧ execDrd k s = .next (answer (.word (diagWord s k)) s)) ∨
    (3 < k.toNat ∧ execDrd k s = .refused (.drdWordOutOfRange k)) := by
  unfold execDrd drdEnabled
  by_cases h : k.toNat ≤ 3
  · simp [h]
  · simp [h]; omega

/-- A slot after a NORMAL line is published: only the one at `wr` is another (rule R100). -/
theorem readSlot_publishNormal (s : State) (j : Nat) :
    readSlot (publishNormal s) j = if j = s.wr.toNat then some (publishedLine s) else readSlot s j := by
  show readSlot (push (evt clsNormal (execFlag s) s.wr) (writeSlot s.wr.toNat (publishedLine s) s)) j = _
  simp

/-- A blank line leaves history (rule R101). -/
theorem readSlot_noteBlank (s : State) (j : Nat) : readSlot (noteBlank s) j = readSlot s j := by
  unfold noteBlank
  split
  · rfl
  · exact readSlot_push _ s j

/-- The queue after a NORMAL line is what `PUSH` leaves (rule R100 step 2). -/
theorem publishNormal_queue (s : State) :
    (publishNormal s).qHead = (push (evt clsNormal (execFlag s) s.wr) s).qHead ∧
    (publishNormal s).qOverrun = (push (evt clsNormal (execFlag s) s.wr) s).qOverrun ∧
    (publishNormal s).mem.qBuf = (push (evt clsNormal (execFlag s) s.wr) s).mem.qBuf := by
  have hq : queueFull (writeSlot s.wr.toNat (publishedLine s) s) = queueFull s := rfl
  cases h : queueFull s <;> simp [publishNormal, push, hq, h]

/-- The queue after a blank line: one event for the first of a run, nothing for a later one (rule R101). -/
theorem noteBlank_queue (s : State) :
    (s.idleRun = true ∧ (noteBlank s).qHead = s.qHead ∧ (noteBlank s).qOverrun = s.qOverrun ∧
      (noteBlank s).mem = s.mem) ∨
    (s.idleRun = false ∧ (noteBlank s).qHead = (push (evt clsIdle (execFlag s) 0) s).qHead ∧
      (noteBlank s).qOverrun = (push (evt clsIdle (execFlag s) 0) s).qOverrun ∧
      (noteBlank s).mem = (push (evt clsIdle (execFlag s) 0) s).mem) := by
  unfold noteBlank
  cases h : s.idleRun <;> simp

end Sys2Proof.Machine
end

