-- ==== Sys2Proof/Laws/Commute.lean ====
section
/-!
SUPPORT. No operation reads or writes the trace: running an operation and replacing the trace commute.
-/

namespace Sys2Proof.Machine

/-- An outcome with its next state's trace replaced. -/
def outcomeWithTrace (tr : List Byte) : Host.Outcome State Fault Refusal → Host.Outcome State Fault Refusal
  | .next t => .next (setTrace tr t)
  | .fault f => .fault f
  | .refused r => .refused r

theorem push_setTrace (tr : List Byte) (b : Byte) (s : State) : push b (setTrace tr s) = setTrace tr (push b s) := by
  have h : queueFull (setTrace tr s) = queueFull s := rfl
  unfold push
  rw [h]
  split <;> rfl

theorem publishNormal_setTrace (tr : List Byte) (s : State) :
    publishNormal (setTrace tr s) = setTrace tr (publishNormal s) := by
  have h := push_setTrace tr (evt clsNormal (execFlag s) s.wr) (writeSlot s.wr.toNat (publishedLine s) s)
  unfold publishNormal
  rw [show push (evt clsNormal (execFlag (setTrace tr s)) (setTrace tr s).wr)
    (writeSlot (setTrace tr s).wr.toNat (publishedLine (setTrace tr s)) (setTrace tr s)) =
    setTrace tr (push (evt clsNormal (execFlag s) s.wr) (writeSlot s.wr.toNat (publishedLine s) s)) from h]
  rfl

theorem noteBlank_setTrace (tr : List Byte) (s : State) : noteBlank (setTrace tr s) = setTrace tr (noteBlank s) := by
  have h := push_setTrace tr (evt clsIdle (execFlag s) 0) s
  unfold noteBlank
  rw [show push (evt clsIdle (execFlag (setTrace tr s)) 0) (setTrace tr s) =
    setTrace tr (push (evt clsIdle (execFlag s) 0) s) from h, show (setTrace tr s).idleRun = s.idleRun from rfl]
  split <;> rfl

theorem classify_setTrace (tr : List Byte) (s : State) : classify (setTrace tr s) = setTrace tr (classify s) := by
  unfold classify
  rw [publishNormal_setTrace, noteBlank_setTrace, show chgAny (setTrace tr s) = chgAny s from rfl,
    show nbAny (setTrace tr s) = nbAny s from rfl]
  split
  · rfl
  · split <;> rfl

theorem finishCycle_setTrace (tr : List Byte) (s : State) : finishCycle (setTrace tr s) = setTrace tr (finishCycle s) := by
  have h := classify_setTrace tr (samplingOver s)
  unfold finishCycle
  rw [show classify (samplingOver (setTrace tr s)) =
    setTrace tr (classify (samplingOver s)) from h]
  rfl

/-- No operation reads the trace, and none changes it. -/
theorem exec_setTrace (i : Instr) (tr : List Byte) (s : State) :
    exec i (setTrace tr s) = outcomeWithTrace tr (exec i s) := by
  cases i with
  | grd1 now seg =>
    show execGrd1 now seg (setTrace tr s) = outcomeWithTrace tr (execGrd1 now seg s)
    rcases execGrd1_cases now seg (setTrace tr s) with ⟨h, e⟩ | ⟨h1, h2, h3, e⟩ | ⟨h1, h2, h3, h4, e⟩ | ⟨h1, h2, h3, h4, e⟩ <;>
      rw [e] <;> simp only [setTrace_gridQ, setTrace_fsm, setTrace_tsValid, setTrace_lastTs, setTrace_cfg] at * <;>
      rcases execGrd1_cases now seg s with ⟨h', e'⟩ | ⟨h1', h2', h3', e'⟩ | ⟨h1', h2', h3', h4', e'⟩ | ⟨h1', h2', h3', h4', e'⟩ <;>
      first | (rw [e']; rfl) | (simp_all; done) | omega
  | ttk seg =>
    show execTtk seg (setTrace tr s) = outcomeWithTrace tr (execTtk seg s)
    rcases execTtk_cases seg (setTrace tr s) with ⟨h, e⟩ | ⟨h1, h2, h3, e⟩ | ⟨h1, h2, h3, e⟩ <;>
      rw [e] <;> simp only [setTrace_tmrEn, setTrace_tmrPending, setTrace_pos] at * <;>
      rcases execTtk_cases seg s with ⟨h', e'⟩ | ⟨h1', h2', h3', e'⟩ | ⟨h1', h2', h3', e'⟩ <;>
      first
        | (rw [e']; rfl)
        | (rw [e', show sample 13 seg (setTrace tr s) = setTrace tr (sample 13 seg s) from rfl, finishCycle_setTrace]; rfl)
        | simp_all
  | tex =>
    show execTex (setTrace tr s) = outcomeWithTrace tr (execTex s)
    unfold execTex; rw [show texEnabled (setTrace tr s) = texEnabled s from rfl]; split <;> rfl
  | pop =>
    show execPop (setTrace tr s) = outcomeWithTrace tr (execPop s)
    unfold execPop
    rw [show queueEmpty (setTrace tr s) = queueEmpty s from rfl,
      show readEvent (setTrace tr s) (queuePos (setTrace tr s).cfg (setTrace tr s).qTail) =
        readEvent s (queuePos s.cfg s.qTail) from rfl]
    split
    · rfl
    · simp only; split <;> rfl
  | srd idx k =>
    show execSrd idx k (setTrace tr s) = outcomeWithTrace tr (execSrd idx k s)
    unfold execSrd; split <;> rfl
  | drd k =>
    show execDrd k (setTrace tr s) = outcomeWithTrace tr (execDrd k s)
    unfold execDrd; split <;> rfl
  | _ => rfl

end Sys2Proof.Machine
end

