-- ==== Sys2Proof/Laws/Encoding.lean ====
section
/-!
SUPPORT. The small lemmas of the encodings: the four bytes of a time operand, the fields of an event byte.
-/

namespace Sys2Proof

/-- A 32-bit operand is its four bytes, least significant first (rule R63). -/
theorem timeOfBytes_timeByte (t : Word) :
    timeOfBytes (timeByte t 0) (timeByte t 1) (timeByte t 2) (timeByte t 3) = t := by
  apply BitVec.eq_of_getLsbD_eq
  intro i hi
  simp only [timeOfBytes, timeByte, BitVec.getLsbD_append, BitVec.getLsbD_extractLsb']
  split_ifs with h0 h1 h2
  · simp [show i < 8 from h0]
  · have : i - 8 < 8 := h1
    have e : 8 * 1 + (i - 8) = i := by omega
    simp [this, e]
  · have : i - 8 - 8 < 8 := h2
    have e : 8 * 2 + (i - 8 - 8) = i := by omega
    simp [this, e]
  · have : i - 8 - 8 - 8 < 8 := by omega
    have e : 8 * 3 + (i - 8 - 8 - 8) = i := by omega
    simp [this, e]

/-- Byte `j` of the operand built from four bytes is byte `j`. -/
theorem timeByte_timeOfBytes (b0 b1 b2 b3 : Byte) :
    timeByte (timeOfBytes b0 b1 b2 b3) 0 = b0 ∧ timeByte (timeOfBytes b0 b1 b2 b3) 1 = b1 ∧
    timeByte (timeOfBytes b0 b1 b2 b3) 2 = b2 ∧ timeByte (timeOfBytes b0 b1 b2 b3) 3 = b3 := by
  refine ⟨?_, ?_, ?_, ?_⟩ <;> apply BitVec.eq_of_getLsbD_eq <;> intro i hi <;>
    simp only [timeOfBytes, timeByte, BitVec.getLsbD_append, BitVec.getLsbD_extractLsb'] <;>
    simp only [hi, decide_true, Bool.true_and]
  · simp [hi]
  · have h1 : ¬ (8 * 1 + i < 8) := by omega
    have e : 8 * 1 + i - 8 = i := by omega
    simp [h1, e, hi]
  · have h1 : ¬ (8 * 2 + i < 8) := by omega
    have h2 : ¬ (8 * 2 + i - 8 < 8) := by omega
    have e : 8 * 2 + i - 8 - 8 = i := by omega
    simp [h1, h2, e, hi]
  · have h1 : ¬ (8 * 3 + i < 8) := by omega
    have h2 : ¬ (8 * 3 + i - 8 < 8) := by omega
    have h3 : ¬ (8 * 3 + i - 8 - 8 < 8) := by omega
    have e : 8 * 3 + i - 8 - 8 - 8 = i := by omega
    simp [h1, h2, h3, e]

/-- The class field of a constructed event (rule R59). -/
@[simp] theorem eventClass_evt (cls : BitVec 2) (executing : Bool) (idx : BitVec 4) :
    eventClass (evt cls executing idx) = cls := by
  revert cls executing idx; decide

/-- The execution flag of a constructed event (rule R58). -/
@[simp] theorem evt_exec (cls : BitVec 2) (executing : Bool) (idx : BitVec 4) :
    (evt cls executing idx).getLsbD 5 = executing := by
  revert cls executing idx; decide

/-- The slot index of a constructed event (rule R57). -/
@[simp] theorem evt_idx (cls : BitVec 2) (executing : Bool) (idx : BitVec 4) :
    (evt cls executing idx).extractLsb' 0 4 = idx := by
  revert cls executing idx; decide

end Sys2Proof
end

