-- ==== Sys2Proof/Laws/PerInstr.lean ====
section
/-!
SUPPORT. Statements made per row of the opcode table: the form of its record (rules R61, R62 of 30_encoding.md).
-/

namespace Sys2Proof.Laws.RecordForm

/-- The row's encoding has the length of rule R62; and its first byte is a stimulus opcode (`0x00` to `0x0A`, rule R61)
exactly when the row is an operation, not a LineEvent. -/
def Statement (i : Instr) : Prop :=
  (encode i).length = recordLength i ∧
  ∃ b rest, encode i = b :: rest ∧ (b.toNat ≤ 10 ↔ i.space = .stimulus)

theorem rst : Statement .rst := ⟨rfl, _, _, rfl, by decide⟩
theorem grd0 : Statement .grd0 := ⟨rfl, _, _, rfl, by decide⟩
theorem grd1 (now : Word) (seg : Byte) : Statement (.grd1 now seg) := ⟨rfl, _, _, rfl, by simp [Instr.space]⟩
theorem tex : Statement .tex := ⟨rfl, _, _, rfl, by decide⟩
theorem ttk (seg : Byte) : Statement (.ttk seg) := ⟨rfl, _, _, rfl, by simp [Instr.space]⟩
theorem mst : Statement .mst := ⟨rfl, _, _, rfl, by decide⟩
theorem pop : Statement .pop := ⟨rfl, _, _, rfl, by decide⟩
theorem srd (idx k : Byte) : Statement (.srd idx k) := ⟨rfl, _, _, rfl, by simp [Instr.space]⟩
theorem wrd : Statement .wrd := ⟨rfl, _, _, rfl, by decide⟩
theorem drd (k : Byte) : Statement (.drd k) := ⟨rfl, _, _, rfl, by simp [Instr.space]⟩
theorem flg (f : Byte) : Statement (.flg f) := ⟨rfl, _, _, rfl, by simp [Instr.space]⟩
theorem evNormal (executing : Bool) (idx : BitVec 4) : Statement (.evNormal executing idx) :=
  ⟨rfl, _, _, rfl, by revert executing idx; decide⟩
theorem evIdle (executing : Bool) : Statement (.evIdle executing) := ⟨rfl, _, _, rfl, by revert executing; decide⟩

end Sys2Proof.Laws.RecordForm
end

