-- ==== Sys2Proof/Laws/Steps.lean ====
section
/-!
SUPPORT. Everything one operation can do, said once: every next state of `exec` is one of eighteen named updates, each
with the conditions under which it is the one. A proof over all operations is one case analysis of `ExecNext`.
-/

namespace Sys2Proof.Machine

/-- `i`, run in the first state, answers the second. -/
inductive ExecNext : Instr → State → State → Prop
  | rst (s : State) : ExecNext .rst s (deliver .nothing (resetBlock s))
  | grd0 (s : State) : ExecNext .grd0 s (deliver .nothing (lineLow s))
  | unserviced (now : Word) (seg : Byte) (s : State) (h : s.gridQ = true ∨ s.fsm = .sampling) :
      ExecNext (.grd1 now seg) s (deliver .nothing (lineHigh s))
  | first (now : Word) (seg : Byte) (s : State) (he : edgeServiced s) (h : s.tsValid = false) :
      ExecNext (.grd1 now seg) s (deliver .nothing (firstEdge now (lineHigh s)))
  | noise (now : Word) (seg : Byte) (s : State) (h : noiseEdge now s) :
      ExecNext (.grd1 now seg) s (deliver .nothing (measured now (lineHigh s)))
  | accepted (now : Word) (seg : Byte) (s : State) (h : edgeAccepted now s) :
      ExecNext (.grd1 now seg) s (deliver .nothing (startCycle (now - s.lastTs) seg (measured now (lineHigh s))))
  | tex (s : State) (h : s.tmrEn = true) : ExecNext .tex s (deliver .nothing (timerExpire s))
  | finalTick (v : Byte) (s : State) (h : finalTick s) :
      ExecNext (.ttk v) s (deliver .nothing (finishCycle (sample 13 v s)))
  | tick (v : Byte) (s : State) (he : s.tmrEn = true) (hp : s.tmrPending = true) (h : s.pos.val < 13) :
      ExecNext (.ttk v) s (deliver .nothing (nextPosition s.pos (sample s.pos v s)))
  | mst (s : State) : ExecNext .mst s (deliver .nothing (tickWatchdog s))
  | popNone (s : State) (h : s.qHead = s.qTail) : ExecNext .pop s (answer .popNone s)
  | popSome (s : State) (h : s.qHead ≠ s.qTail) (b : Byte) (hb : b = readEvent s (queuePos s.cfg s.qTail))
      (hr : eventReserved b = false) : ExecNext .pop s (deliver (.popSome b) (advanceTail s))
  | srd (idx k : Byte) (s : State) (h : k.toNat ≤ 14) :
      ExecNext (.srd idx k) s (answer (.field (readField s (slotOfIdx s.cfg idx) k)) s)
  | wrd (s : State) : ExecNext .wrd s (answer (.watchdog s.wdg (wdgExpired s)) s)
  | drd (k : Byte) (s : State) (h : k.toNat ≤ 3) : ExecNext (.drd k) s (answer (.word (diagWord s k)) s)
  | flg (f : Byte) (s : State) : ExecNext (.flg f) s (deliver .nothing (setFlags f s))
  | evNormal (executing : Bool) (idx : BitVec 4) (s : State) :
      ExecNext (.evNormal executing idx) s (answer (.event (.normal idx executing)) s)
  | evIdle (executing : Bool) (s : State) :
      ExecNext (.evIdle executing) s (answer (.event (.idle executing)) s)

/-- Every next state is one of those of `ExecNext`. -/
theorem execNext_of_exec {i : Instr} {s t : State} (h : exec i s = .next t) : ExecNext i s t := by
  cases i with
  | rst => cases h; exact .rst s
  | grd0 => cases h; exact .grd0 s
  | grd1 now seg =>
    rcases execGrd1_cases now seg s with ⟨hc, e⟩ | ⟨h1, h2, h3, e⟩ | ⟨h1, h2, h3, h4, e⟩ | ⟨h1, h2, h3, h4, e⟩ <;>
      obtain rfl : _ = t := Host.Outcome.next.inj (e.symm.trans h)
    · exact .unserviced now seg s hc
    · exact .first now seg s ⟨h1, h2⟩ h3
    · exact .noise now seg s ⟨⟨h1, h2⟩, h3, h4⟩
    · exact .accepted now seg s ⟨⟨h1, h2⟩, h3, h4⟩
  | tex =>
    rcases execTex_cases s with ⟨hc, e⟩ | ⟨-, e⟩
    · obtain rfl : _ = t := Host.Outcome.next.inj (e.symm.trans h); exact .tex s hc
    · cases e.symm.trans h
  | ttk v =>
    rcases execTtk_cases v s with ⟨-, e⟩ | ⟨h1, h2, h3, e⟩ | ⟨h1, h2, h3, e⟩
    · cases e.symm.trans h
    · obtain rfl : _ = t := Host.Outcome.next.inj (e.symm.trans h); exact .finalTick v s ⟨h1, h2, h3⟩
    · obtain rfl : _ = t := Host.Outcome.next.inj (e.symm.trans h)
      refine .tick v s h1 h2 ?_
      have : s.pos.val ≠ 13 := fun hc => h3 (Fin.ext hc)
      omega
  | mst => cases h; exact .mst s
  | pop =>
    rcases execPop_cases s with ⟨hc, e⟩ | ⟨-, -, e⟩ | ⟨h1, h2, e⟩
    · obtain rfl : _ = t := Host.Outcome.next.inj (e.symm.trans h); exact .popNone s hc
    · cases e.symm.trans h
    · obtain rfl : _ = t := Host.Outcome.next.inj (e.symm.trans h); exact .popSome s h1 _ rfl h2
  | srd idx k =>
    rcases execSrd_cases idx k s with ⟨hc, e⟩ | ⟨-, e⟩
    · obtain rfl : _ = t := Host.Outcome.next.inj (e.symm.trans h); exact .srd idx k s hc
    · cases e.symm.trans h
  | wrd => cases h; exact .wrd s
  | drd k =>
    rcases execDrd_cases k s with ⟨hc, e⟩ | ⟨-, e⟩
    · obtain rfl : _ = t := Host.Outcome.next.inj (e.symm.trans h); exact .drd k s hc
    · cases e.symm.trans h
  | flg f => cases h; exact .flg f s
  | evNormal e idx => cases h; exact .evNormal e idx s
  | evIdle e => cases h; exact .evIdle e s

/-! ## The queue and the history, element by element -/

theorem queueCap_dvd (c : Config) : c.queueCap ∣ 256 := by
  have h : c.queueLog.val ≤ 8 := by omega
  exact pow_dvd_pow 2 h

/-- The position of the entry `j` places after index `a` (rules R44, R45). -/
theorem queuePos_add (c : Config) (a : Byte) (j : Nat) :
    queuePos c (a + BitVec.ofNat 8 j) = (a.toNat + j) % c.queueCap := by
  rw [queuePos_eq_mod, BitVec.toNat_add, BitVec.toNat_ofNat, Nat.mod_mod_of_dvd _ (queueCap_dvd c), Nat.add_mod,
    Nat.mod_mod_of_dvd _ (queueCap_dvd c), ← Nat.add_mod]

/-- The head is the tail and the count together (rule R45). -/
theorem qHead_eq (s : State) : s.qHead = s.qTail + BitVec.ofNat 8 (queueCount s) := by
  have : BitVec.ofNat 8 (queueCount s) = s.qHead - s.qTail := BitVec.ofNat_toNat .. |>.trans (by simp)
  rw [this]; ring

theorem queueCount_eq_zero (s : State) : queueCount s = 0 ↔ s.qHead = s.qTail := by
  constructor
  · intro h; have := qHead_eq s; rw [h] at this; simpa using this
  · intro h; simp [queueCount, h]

/-- With room, `PUSH` writes one entry and advances the head (rule R107). -/
theorem push_room_reads (b : Byte) (s : State) (h : queueCount s ≠ s.cfg.queueCap) :
    (push b s).qHead = s.qHead + 1 ∧ (push b s).qOverrun = s.qOverrun ∧
      ∀ j, readEntry (push b s) j = if j = queuePos s.cfg s.qHead then some b else readEntry s j := by
  rw [push_of_room b s (by simpa [queueFull] using h)]; simp

/-- Without room, `PUSH` only counts (rule R108). -/
theorem push_full_reads (b : Byte) (s : State) (h : queueCount s = s.cfg.queueCap) :
    (push b s).qHead = s.qHead ∧ (push b s).qOverrun = satInc s.qOverrun ∧
      ∀ j, readEntry (push b s) j = readEntry s j := by
  rw [push_of_full b s (by simpa [queueFull] using h)]; simp

/-- What the end of a cycle leaves where the line is published: the slot, the cursor, and in the queue what `PUSH` of the
NORMAL event leaves (rule R100). -/
theorem finishCycle_normal (s : State) (hc : s.chgMask ≠ 0) (hn : s.nbMask ≠ 0) :
    (finishCycle s).wr = nextSlot s.cfg s.wr ∧ (finishCycle s).idleCnt = 0 ∧ (finishCycle s).idleRun = false ∧
    (∀ j, readSlot (finishCycle s) j = if j = s.wr.toNat then some (publishedLine s) else readSlot s j) ∧
    (finishCycle s).qHead = (push (evt clsNormal (execFlag s) s.wr) s).qHead ∧
    (finishCycle s).qOverrun = (push (evt clsNormal (execFlag s) s.wr) s).qOverrun ∧
    (∀ j, readEntry (finishCycle s) j = readEntry (push (evt clsNormal (execFlag s) s.wr) s) j) := by
  have hcl : classify (samplingOver s) = publishNormal (samplingOver s) := by
    rcases classify_cases (samplingOver s) with ⟨-, -, h⟩ | ⟨h, -⟩ | ⟨h, -, -⟩
    · exact h
    · exact absurd h hn
    · exact absurd h hc
  obtain ⟨q1, q2, q3⟩ := publishNormal_queue (samplingOver s)
  have hpush : ∀ b : Byte, (push b (samplingOver s)).qHead = (push b s).qHead ∧
      (push b (samplingOver s)).qOverrun = (push b s).qOverrun ∧
      (push b (samplingOver s)).mem = (push b s).mem := by
    intro b
    have hq : queueFull (samplingOver s) = queueFull s := rfl
    cases h : queueFull s <;> simp [push, hq, h]
  obtain ⟨p1, p2, p3⟩ := hpush (evt clsNormal (execFlag s) s.wr)
  refine ⟨?_, ?_, ?_, fun j => ?_, ?_, ?_, fun j => ?_⟩
  · show (classify (samplingOver s)).wr = _; rw [hcl]; simp
  · show (classify (samplingOver s)).idleCnt = _; rw [hcl]; simp
  · show (classify (samplingOver s)).idleRun = _; rw [hcl]; simp
  · show readSlot (classify (samplingOver s)) j = _; rw [hcl, readSlot_publishNormal]; rfl
  · show (classify (samplingOver s)).qHead = _; rw [hcl, q1]; exact p1
  · show (classify (samplingOver s)).qOverrun = _; rw [hcl, q2]; exact p2
  · show storeRead (classify (samplingOver s)).mem.qBuf j = _
    rw [hcl, q3]
    show storeRead (push (evt clsNormal (execFlag s) s.wr) (samplingOver s)).mem.qBuf j = _
    rw [p3]; rfl

/-- What the end of a cycle leaves where the line is blank: history as it was, and in the queue what `PUSH` of the IDLE
event leaves if this is the first blank cycle of a run (rule R101). -/
theorem finishCycle_blank (s : State) (hn : s.nbMask = 0) :
    (finishCycle s).wr = s.wr ∧ (finishCycle s).idleRun = true ∧
    (finishCycle s).idleCnt = (if s.idleRun then s.idleCnt + 1 else s.idleCnt) ∧
    (∀ j, readSlot (finishCycle s) j = readSlot s j) ∧
    (s.idleRun = true → (finishCycle s).qHead = s.qHead ∧ (finishCycle s).qOverrun = s.qOverrun ∧
      ∀ j, readEntry (finishCycle s) j = readEntry s j) ∧
    (s.idleRun = false → (finishCycle s).qHead = (push (evt clsIdle (execFlag s) 0) s).qHead ∧
      (finishCycle s).qOverrun = (push (evt clsIdle (execFlag s) 0) s).qOverrun ∧
      ∀ j, readEntry (finishCycle s) j = readEntry (push (evt clsIdle (execFlag s) 0) s) j) := by
  have hcl : classify (samplingOver s) = noteBlank (samplingOver s) := by
    rcases classify_cases (samplingOver s) with ⟨-, h, -⟩ | ⟨-, h⟩ | ⟨-, h, -⟩
    · exact absurd hn h
    · exact h
    · exact absurd hn h
  have hpush : ∀ b : Byte, (push b (samplingOver s)).qHead = (push b s).qHead ∧
      (push b (samplingOver s)).qOverrun = (push b s).qOverrun ∧
      (push b (samplingOver s)).mem = (push b s).mem := by
    intro b
    have hq : queueFull (samplingOver s) = queueFull s := rfl
    cases h : queueFull s <;> simp [push, hq, h]
  obtain ⟨p1, p2, p3⟩ := hpush (evt clsIdle (execFlag s) 0)
  refine ⟨?_, ?_, ?_, fun j => ?_, fun hr => ?_, fun hr => ?_⟩
  · show (classify (samplingOver s)).wr = _; rw [hcl]; simp
  · show (classify (samplingOver s)).idleRun = _; rw [hcl]; simp
  · show (classify (samplingOver s)).idleCnt = _; rw [hcl, noteBlank_idleCnt]; rfl
  · show readSlot (classify (samplingOver s)) j = _; rw [hcl, readSlot_noteBlank]; rfl
  · rcases noteBlank_queue (samplingOver s) with ⟨-, b1, b2, b3⟩ | ⟨b0, -⟩
    · refine ⟨?_, ?_, fun j => ?_⟩
      · show (classify (samplingOver s)).qHead = _; rw [hcl, b1]; rfl
      · show (classify (samplingOver s)).qOverrun = _; rw [hcl, b2]; rfl
      · show storeRead (classify (samplingOver s)).mem.qBuf j = _; rw [hcl, b3]; rfl
    · simp [hr] at b0
  · rcases noteBlank_queue (samplingOver s) with ⟨b0, -⟩ | ⟨-, b1, b2, b3⟩
    · simp [hr] at b0
    · refine ⟨?_, ?_, fun j => ?_⟩
      · show (classify (samplingOver s)).qHead = _; rw [hcl, b1]; exact p1
      · show (classify (samplingOver s)).qOverrun = _; rw [hcl, b2]; exact p2
      · show storeRead (classify (samplingOver s)).mem.qBuf j = _
        rw [hcl, b3]
        show storeRead (push (evt clsIdle (execFlag s) 0) (samplingOver s)).mem.qBuf j = _
        rw [p3]; rfl

/-- What the end of a cycle leaves where the line is unchanged: queue, history and counters as they were (rule R102). -/
theorem finishCycle_unchanged (s : State) (hc : s.chgMask = 0) (hn : s.nbMask ≠ 0) :
    (finishCycle s).wr = s.wr ∧ (finishCycle s).idleRun = s.idleRun ∧ (finishCycle s).idleCnt = s.idleCnt ∧
    (finishCycle s).qHead = s.qHead ∧ (finishCycle s).qOverrun = s.qOverrun ∧ (finishCycle s).mem = s.mem := by
  have hcl : classify (samplingOver s) = samplingOver s := by
    rcases classify_cases (samplingOver s) with ⟨h, -, -⟩ | ⟨h, -⟩ | ⟨-, -, h⟩
    · exact absurd hc h
    · exact absurd h hn
    · exact h
  unfold finishCycle
  rw [hcl]
  exact ⟨rfl, rfl, rfl, rfl, rfl, rfl⟩

/-- What the end of a cycle can do to the queue: nothing, or one `PUSH` of a NORMAL event naming the slot just written, or
of an IDLE event. -/
theorem finishCycle_queue (s : State) :
    ((finishCycle s).qHead = s.qHead ∧ (finishCycle s).qOverrun = s.qOverrun ∧
      ∀ j, readEntry (finishCycle s) j = readEntry s j) ∨
    (∃ b : Byte, ((∃ e, b = evt clsIdle e 0) ∨ (∃ e, b = evt clsNormal e s.wr ∧ (readSlot (finishCycle s) s.wr.toNat).isSome)) ∧
      (finishCycle s).qHead = (push b s).qHead ∧ (finishCycle s).qOverrun = (push b s).qOverrun ∧
      ∀ j, readEntry (finishCycle s) j = readEntry (push b s) j) := by
  by_cases hn : s.nbMask = 0
  · obtain ⟨-, -, -, -, h1, h2⟩ := finishCycle_blank s hn
    cases hr : s.idleRun
    · exact .inr ⟨_, .inl ⟨_, rfl⟩, h2 hr⟩
    · exact .inl (h1 hr)
  · by_cases hc : s.chgMask = 0
    · obtain ⟨-, -, -, h1, h2, h3⟩ := finishCycle_unchanged s hc hn
      exact .inl ⟨h1, h2, fun j => by unfold readEntry; rw [h3]⟩
    · obtain ⟨-, -, -, h0, h1, h2, h3⟩ := finishCycle_normal s hc hn
      exact .inr ⟨_, .inr ⟨_, rfl, by rw [h0]; simp⟩, h1, h2, h3⟩

/-- The end of a cycle keeps memory canonical and inside the two index spaces, and the cursor on a slot (rules R36, R41). -/
theorem finishCycle_memory (s : State) (hc : s.wr.toNat < s.cfg.numLines) (hw : s.mem.wf = true)
    (hs : s.mem.inSpace s.cfg = true) :
    (finishCycle s).wr.toNat < s.cfg.numLines ∧ (finishCycle s).mem.wf = true ∧
    (finishCycle s).mem.inSpace s.cfg = true := by
  have hpush : ∀ (b : Byte) (u : State), u.cfg = s.cfg → u.mem.wf = true → u.mem.inSpace s.cfg = true →
      (push b u).mem.wf = true ∧ (push b u).mem.inSpace s.cfg = true := by
    intro b u hu hw hs
    refine ⟨push_wf b u hw, ?_⟩
    rcases push_cases b u with ⟨-, h⟩ | ⟨-, h⟩
    · rw [h]; exact hs
    · rw [h]
      simp only [Memory.inSpace, Bool.and_eq_true] at hs ⊢
      exact ⟨hs.1, storeBelow_write _ _ _ _ (hu ▸ queuePos_lt u.cfg u.qHead) hs.2⟩
  have hslot : (writeSlot s.wr.toNat (publishedLine (samplingOver s)) (samplingOver s)).mem.inSpace s.cfg = true := by
    simp only [Memory.inSpace, Bool.and_eq_true] at hs ⊢
    exact ⟨storeBelow_write _ _ _ _ hc hs.1, hs.2⟩
  rcases classify_cases (samplingOver s) with ⟨-, -, h⟩ | ⟨-, h⟩ | ⟨-, -, h⟩ <;> unfold finishCycle <;> rw [h]
  · exact ⟨by simpa using nextSlot_lt s.cfg s.wr, hpush _ _ rfl (writeSlot_wf _ _ _ hw) hslot⟩
  · refine ⟨by simpa using hc, ?_⟩
    unfold noteBlank
    split
    · exact ⟨hw, hs⟩
    · exact hpush _ _ rfl hw hs
  · exact ⟨hc, hw, hs⟩

/-- A step is `exec` of an instruction, on the state but for the trace and the handed byte. -/
theorem step_next {s t : State} (h : step s = .next t) :
    ∃ i tr hd, exec i (setHanded hd (setTrace tr s)) = .next t := by
  unfold step at h
  cases hh : s.handed with
  | some b =>
    cases hd : decodeEvent b with
    | ok i =>
      refine ⟨i, s.trace, none, ?_⟩
      simpa [fetch, hh, hd, setHanded, setTrace] using h
    | error e => cases e <;> simp [fetch, hh, hd, rejected] at h
  | none =>
    cases hd : decodeStimulus s.trace with
    | ok p =>
      refine ⟨p.1, p.2, none, ?_⟩
      have hs : setHanded none (setTrace p.2 s) = setTrace p.2 s := by
        show setHanded none (setTrace p.2 s) = { setTrace p.2 s with handed := s.handed }
        rw [hh]; rfl
      rw [hs]
      simpa [fetch, hh, hd] using h
    | error e => cases e <;> simp [fetch, hh, hd, rejected] at h

end Sys2Proof.Machine
end

