-- ==== Sys2Proof/Tests/Slice0.lean ====
section
/-!
SUPPORT. The model's own tests. Expected values come from the vectors V1 to V85 of 95_test_vectors.md (named at each test)
and from the encoding tables of 30_encoding.md, never from the model. Then one witness for the hypotheses of each statement
that has hypotheses.
-/

namespace Sys2Proof.Machine.Test

open Sys2Proof Sys2Proof.Machine

/-! ## Small states -/

/-- Profile T of 95_test_vectors.md, made up by the spec for its vectors. -/
def profileT : Config where
  linesLog := 4
  queueLog := 4
  wdgTickMs := 10
  periodFloor := 700
  firstTickExtra := 5
  corrStep := 2
  settleDelay := 3
  execPos := 13
  execSentinel := 0x40
  signPos := 11
  signKeep := 0x40
  wdgTimeoutTicks := 30
  vkNonblankAlways := false

/-- Reset under profile T. -/
def fresh : State := { State.reset with cfg := profileT }

/-- The line low, the first edge seen at time 0. -/
def waiting : State := { fresh with gridQ := false, tsValid := true, fsm := .firstEdge }

/-- In mid-cycle, before the sample of position `p`, a tick pending, reload 100. -/
def sampling (p : Position) : State :=
  { fresh with fsm := .sampling, pos := p, tsValid := true, tmrEn := true, tmrPending := true, period := 1400, reload := 100,
               tmrReload := 100 }

/-- Before the last sample of a cycle in which position 5 changed and is not blank. -/
def lastNormal : State := { sampling 13 with chgMask := 0x20, nbMask := 0x20, wr := 3, idleCnt := 4, idleRun := true }

/-- Before the last sample of a cycle in which position 5 changed to blank. -/
def lastBlank : State := { sampling 13 with chgMask := 0x20 }

/-- Two events in the queue, a NORMAL one for slot 0 and an IDLE one; slot 0 written. -/
def queued : State :=
  { fresh with qHead := 2, wr := 1,
               mem := { hist := [(0, { seg := Vector.replicate 14 0x3F, idle := 0x0102 })], qBuf := [(0, 0x80), (1, 0x40)] } }

/-- The same state with the queue full. -/
def full (s : State) : State := { s with qHead := 16, qTail := 0 }

/-- The outcome is a next state of which `p` holds. -/
def nextIs (o : Host.Outcome State Fault Refusal) (p : State → Bool) : Bool :=
  match o with
  | .next t => p t
  | _ => false

/-! ## Well-formedness -/

/-- R61: `SRD` needs `k ≤ 14` (V72). -/
theorem test_wf_srd : (Instr.srd 0 15).wf = false ∧ (Instr.srd 0 14).wf = true := by decide

/-- R61: `DRD` needs `k ≤ 3` (V80). -/
theorem test_wf_drd : (Instr.drd 4).wf = false ∧ (Instr.drd 3).wf = true := by decide

/-- R10: profile T is well-formed; each condition broken alone is refused. -/
theorem test_wf_config : profileT.wf = true ∧ Config.wf { profileT with execPos := 11 } = false ∧
    Config.wf { profileT with signKeep := 0x41 } = false ∧ Config.wf { profileT with wdgTimeoutTicks := 0 } = false ∧
    Config.wf { profileT with periodFloor := 13, corrStep := 0 } = false ∧
    Config.wf { profileT with periodFloor := 14 } = false := by decide

/-- R9: blank detection at virtual-key positions is gated by default and at reset, as D14 says. -/
theorem test_vk_default : State.reset.cfg.vkNonblankAlways = false := rfl

/-! ## Decoding: a record written out for every row (rules R61 to R63; R59, R60) -/

theorem test_decode_rst : decodeStimulus [0x00, 0x01] = .ok (.rst, [0x01]) := by decide
theorem test_decode_grd0 : decodeStimulus [0x01] = .ok (.grd0, []) := by decide
/-- Program P1's record of `GRD1 1400 0x3F`. -/
theorem test_decode_grd1 : decodeStimulus [0x02, 0x78, 0x05, 0x00, 0x00, 0x3F, 0x03] = .ok (.grd1 1400 0x3F, [0x03]) := by
  decide
theorem test_decode_tex : decodeStimulus [0x03] = .ok (.tex, []) := by decide
theorem test_decode_ttk : decodeStimulus [0x04, 0x5B] = .ok (.ttk 0x5B, []) := by decide
theorem test_decode_mst : decodeStimulus [0x05] = .ok (.mst, []) := by decide
theorem test_decode_pop : decodeStimulus [0x06] = .ok (.pop, []) := by decide
theorem test_decode_srd : decodeStimulus [0x07, 0x00, 0x0B] = .ok (.srd 0 11, []) := by decide
theorem test_decode_wrd : decodeStimulus [0x08] = .ok (.wrd, []) := by decide
theorem test_decode_drd : decodeStimulus [0x09, 0x02] = .ok (.drd 2, []) := by decide
theorem test_decode_flg : decodeStimulus [0x0A, 0x02] = .ok (.flg 2, []) := by decide
/-- V55, V56. -/
theorem test_decode_normal : decodeEvent 0x83 = .ok (.evNormal false 3) ∧ decodeEvent 0xA9 = .ok (.evNormal true 9) := by
  decide
/-- V57, V58. -/
theorem test_decode_idle : decodeEvent 0x60 = .ok (.evIdle true) ∧ decodeEvent 0x47 = .ok (.evIdle false) := by decide
/-- V59. -/
theorem test_decode_reserved : decodeEvent 0x00 = .error (.reservedClass 0) ∧ decodeEvent 0x3F = .error (.reservedClass 0x3F)
    ∧ decodeEvent 0xC0 = .error (.reservedClass 0xC0) ∧ decodeEvent 0xFF = .error (.reservedClass 0xFF) := by decide
/-- V49 to V54. -/
theorem test_evt : evt clsNormal false 0 = 0x80 ∧ evt clsNormal true 0 = 0xA0 ∧ evt clsNormal false 15 = 0x8F ∧
    evt clsNormal true 15 = 0xAF ∧ evt clsIdle false 0 = 0x40 ∧ evt clsIdle true 0 = 0x60 := by decide
theorem test_decode_cut_short : decodeStimulus [0x07, 0x00] = .error (.truncated 7) := by decide
/-- R65's first example of a line, its number in decimal. -/
theorem test_trace_line : traceLine (.grd1 1400 0x3F) = "GRD1 1400 63" := by decide

/-! ## One step of each operation -/

/-- V85. -/
theorem test_rst : nextIs (exec .rst { lastNormal with wdg := 9 }) (fun t => t.gridQ && t.wdg == 0 && t.fsm == .idleWait
    && t.wr == 0 && t.mem == { hist := [], qBuf := [] }) = true := by decide
/-- V2. -/
theorem test_grd0 : nextIs (exec .grd0 fresh) (fun t => !t.gridQ) = true := by decide
/-- V4. -/
theorem test_grd1_accepted : nextIs (exec (.grd1 1400 0x3F) { waiting with tmrPending := true }) (fun t =>
    t.reload == 100 && t.tmrReload == 105 && !t.tmrPending && t.chgMask == 1 && t.nbMask == 1 && t.work[0] == 0x3F
    && t.pos == 1 && t.fsm == .sampling) = true := by decide
/-- V8: the time wraps. -/
theorem test_grd1_wrap : nextIs (exec (.grd1 0x478 0x3F) { waiting with lastTs := 0xFFFFFF00 }) (fun t =>
    t.period == 1400 && t.reload == 100 && t.lastTs == 0x478) = true := by decide
/-- V24. -/
theorem test_tex : nextIs (exec .tex (sampling 4)) (fun t => t.tmrPending) = true := by decide
/-- V27: the 4th sample corrects the reload. -/
theorem test_ttk_correction : nextIs (exec (.ttk 0x5B) (sampling 3)) (fun t =>
    t.reload == 98 && t.tmrReload == 98 && !t.tmrPending && t.pos == 4 && t.work[3] == 0x5B) = true := by decide
/-- V35. -/
theorem test_ttk_normal : nextIs (exec (.ttk 0) lastNormal) (fun t => t.qHead == 1 && readEntry t 0 == some 0x83
    && t.wr == 4 && t.idleCnt == 0 && !t.idleRun && (readSlot t 3).map ScanLine.idle == some 4) = true := by decide
/-- V76. -/
theorem test_mst_saturates : nextIs (exec .mst { fresh with wdg := 0xFFFFFFFF }) (fun t => t.wdg == 0xFFFFFFFF) = true := by
  decide
/-- V74's `MST`. -/
theorem test_mst : nextIs (exec .mst { fresh with wdg := 29 }) (fun t => t.wdg == 30) = true := by decide
/-- V60. -/
theorem test_pop_empty : nextIs (exec .pop fresh) (fun t => t.out == .popNone && t.qTail == 0) = true := by decide
/-- V67: the index wraps. -/
theorem test_pop_wrap : nextIs (exec .pop { fresh with qHead := 2, qTail := 255, mem := { hist := [], qBuf := [(15, 0x8E)] } })
    (fun t => t.out == .popSome 0x8E && t.qTail == 0) = true := by decide
/-- V70: the slot index is taken modulo 16. -/
theorem test_srd : nextIs (exec (.srd 0xF0 0) queued) (fun t => t.out == .field 0x3F) = true := by decide
/-- V73: field 14 is the idle counter. -/
theorem test_srd_idle : nextIs (exec (.srd 0 14) queued) (fun t => t.out == .field 0x0102) = true := by decide
/-- V74's and V75's `WRD`. -/
theorem test_wrd : nextIs (exec .wrd { fresh with wdg := 30 }) (fun t => t.out == .watchdog 30 true) = true ∧
    nextIs (exec .wrd { fresh with wdg := 29 }) (fun t => t.out == .watchdog 29 false) = true := by decide
/-- V79. -/
theorem test_drd : nextIs (exec (.drd 2) (sampling 1)) (fun t => t.out == .word 100) = true ∧
    nextIs (exec (.drd 3) { fresh with qOverrun := 0xFFFF }) (fun t => t.out == .word 0xFFFF) = true := by decide
/-- V81, V83. -/
theorem test_flg : nextIs (exec (.flg 2) fresh) (fun t => !t.fHex && t.fKey) = true ∧
    nextIs (exec (.flg 0xFC) { fresh with fHex := true, fKey := true }) (fun t => !t.fHex && !t.fKey) = true := by decide
/-- V56. -/
theorem test_ev_normal : nextIs (exec (.evNormal true 9) fresh) (fun t => t.out == .event (.normal 9 true)) = true := by decide
/-- V57. -/
theorem test_ev_idle : nextIs (exec (.evIdle true) fresh) (fun t => t.out == .event (.idle true)) = true := by decide

/-! ## Shared operations -/

/-- V14, V18. -/
theorem test_sample : (sample 5 0x06 { fresh with work := fresh.work.set 5 0x3F }).chgMask = 0x20 ∧
    (sample 12 0x01 fresh).chgMask = 0 ∧ (sample 12 0x01 fresh).work[12] = 0x01 := by decide
/-- V63, V64: a push at the wrap, and onto a full queue. -/
theorem test_push : readEntry (push 0x40 { fresh with qHead := 255, qTail := 250 }) 15 = some 0x40 ∧
    (push 0x81 { fresh with qHead := 10, qTail := 250 }).qOverrun = 1 := by decide
/-- V44: the published sign byte is masked, the working line is not. -/
theorem test_sign : (publishedLine { fresh with work := fresh.work.set 11 0xC1 }).seg[11] = 0x40 := by decide
/-- V73's flat image: bytes 14 and 15. -/
theorem test_flat_image : (flatImage { seg := Vector.replicate 14 0, idle := 0x0102 }).drop 14 = [0x02, 0x01] := by decide
/-- The canonical form refuses indices out of order and a repeated index. -/
theorem test_memory_wf : Memory.wf { hist := [], qBuf := [(1, 0x40), (0, 0x80)] } = false ∧
    Memory.wf { hist := [], qBuf := [(1, 0x40), (1, 0x80)] } = false ∧ queued.mem.wf = true := by decide

/-! ## Witnesses: the hypotheses of each statement can be met -/

/-- In mid-cycle at position 5 (reload 98 after one correction) with two unread events, the next operation `TTK 0x06`. -/
def midCycle : State :=
  { queued with fsm := .sampling, pos := 5, tsValid := true, tmrEn := true, tmrPending := true, period := 1400, reload := 98,
                tmrReload := 98, chgMask := 0x1F, nbMask := 0x1F, trace := [0x04, 0x06] }

theorem witness_step_runs_the_decoded_operation :
    decodeStimulus [0x09, 0x02, 0x05] = .ok (.drd 2, [0x05]) ∧ fresh.handed = none ∧
    decodeEvent 0x83 = .ok (.evNormal false 3) := by decide

theorem witness_placed_table_word : decodeTableWord 48 0x3F0000057802 = some (.grd1 1400 0x3F) ∧
    decodeTableWord 8 0x60 = some (.evIdle true) := by decide

theorem witness_decode_of_encode : (Instr.grd1 0xFFFFFFFF 0xFF).space = .stimulus ∧
    (Instr.evNormal true 15).space = .lineEvent := by decide

theorem witness_decoded_trace : decodeStimulus [0x07, 0x00, 0x0E, 0xFF] = .ok (.srd 0 14, [0xFF]) := by decide

theorem witness_unknown_opcodes : 0x0B ≤ (0x0B : Byte).toNat ∧ 0x0B ≤ (0xFF : Byte).toNat ∧
    ({ fresh with trace := [0x0B] } : State).handed = none := by decide

theorem witness_running_a_trace : (∀ i ∈ [Instr.grd0, .grd1 9 0, .srd 0 15], i.space = .stimulus) ∧ fresh.handed = none := by
  decide

/-- The unread events of `queued` are bytes the producer can put there. -/
theorem queued_events : EventsInv queued := by
  intro j hj
  have h2 : queueCount queued = 2 := by decide
  rcases (by omega : j = 0 ∨ j = 1) with rfl | rfl
  · exact ⟨0x80, by decide, .inr ⟨false, 0, by decide, by decide, by decide⟩⟩
  · exact ⟨0x40, by decide, .inl ⟨false, by decide⟩⟩

theorem witness_enabled_operations : EventsInv queued ∧ enabled .pop queued = true ∧ enabled (.srd 0 14) queued = true ∧
    enabled (.srd 0 15) queued = false ∧ enabled (.drd 3) queued = true ∧ enabled (.drd 4) queued = false ∧
    enabled .tex queued = false ∧ enabled (.ttk 0) (sampling 1) = true := ⟨queued_events, by decide⟩

theorem witness_after_rst : ∃ t, exec .rst lastNormal = .next t := ⟨_, rfl⟩

theorem witness_unserviced_edge : fresh.gridQ = true ∧ ({ sampling 5 with gridQ := false } : State).fsm = .sampling := by
  decide

theorem witness_first_edge : edgeServiced { fresh with gridQ := false } ∧ fresh.tsValid = false :=
  ⟨⟨rfl, by decide⟩, rfl⟩

/-- V6: period 699, one below the floor; V9: period 0. -/
theorem witness_noise_edge : noiseEdge 699 waiting ∧ noiseEdge 0 waiting :=
  ⟨⟨⟨rfl, by decide⟩, rfl, by decide⟩, ⟨⟨rfl, by decide⟩, rfl, by decide⟩⟩

/-- V7: period 700, exactly the floor; V13: a huge one. For `AcceptedEdgeStartsACycle`, `FirstTickExtraIsInTheTimerOnly`. -/
theorem witness_accepted_edge : edgeAccepted 700 waiting ∧ edgeAccepted 4000000000 waiting :=
  ⟨⟨⟨rfl, by decide⟩, rfl, by decide⟩, ⟨⟨rfl, by decide⟩, rfl, by decide⟩⟩

theorem witness_serviced_edge : edgeServiced waiting ∧ ({ sampling 5 with gridQ := false } : State).gridQ = false ∧
    (sampling 5).fsm = .sampling := ⟨⟨rfl, by decide⟩, by decide⟩

theorem witness_tex : (sampling 1).tmrEn = true ∧ fresh.tmrEn = false := by decide

/-- The first and the last tick that is not final, and one of each correction. -/
theorem witness_tick_service : ∀ p ∈ [(1 : Position), 3, 4, 7, 11, 12],
    (sampling p).tmrEn = true ∧ (sampling p).tmrPending = true ∧ (sampling p).pos.val < 13 := by decide

theorem witness_final_tick : finalTick (sampling 13) := ⟨rfl, rfl, rfl⟩

/-- Both with room in the queue and with the queue full. -/
theorem witness_normal_line : finalTick lastNormal ∧ (atClassify 0 lastNormal).chgMask ≠ 0 ∧
    (atClassify 0 lastNormal).nbMask ≠ 0 ∧ queueCount lastNormal ≠ lastNormal.cfg.queueCap ∧
    finalTick (full lastNormal) ∧ (atClassify 0 (full lastNormal)).chgMask ≠ 0 ∧
    (atClassify 0 (full lastNormal)).nbMask ≠ 0 ∧ queueCount (full lastNormal) = (full lastNormal).cfg.queueCap :=
  ⟨⟨rfl, rfl, rfl⟩, by decide, by decide, by decide, ⟨rfl, rfl, rfl⟩, by decide⟩

/-- The first of a run with room and with the queue full, and a later one. -/
theorem witness_blank_line : finalTick lastBlank ∧ (atClassify 0 lastBlank).nbMask = 0 ∧ lastBlank.idleRun = false ∧
    queueCount lastBlank ≠ lastBlank.cfg.queueCap ∧ queueCount (full lastBlank) = (full lastBlank).cfg.queueCap ∧
    ({ lastBlank with idleRun := true, idleCnt := 0xFFFF } : State).idleRun = true :=
  ⟨⟨rfl, rfl, rfl⟩, by decide⟩

theorem witness_unchanged_line : finalTick { sampling 13 with nbMask := 0x0FFF } ∧
    (atClassify 0 { sampling 13 with nbMask := 0x0FFF }).chgMask = 0 ∧
    (atClassify 0 { sampling 13 with nbMask := 0x0FFF }).nbMask ≠ 0 := ⟨⟨rfl, rfl, rfl⟩, by decide⟩

theorem witness_exec_bit : ∃ t, finalTick lastNormal ∧ exec (.ttk 0x40) lastNormal = .next t ∧ t.qHead ≠ lastNormal.qHead :=
  ⟨_, ⟨rfl, rfl, rfl⟩, rfl, by decide⟩

theorem witness_push : ((full fresh).qHead.toNat + 256 - (full fresh).qTail.toNat) % 256 = (full fresh).cfg.queueCap ∧
    (fresh.qHead.toNat + 256 - fresh.qTail.toNat) % 256 ≠ fresh.cfg.queueCap := by decide

theorem witness_pop : fresh.qHead = fresh.qTail ∧ queued.qHead ≠ queued.qTail ∧
    readEntry queued (queued.qTail.toNat % queued.cfg.queueCap) = some 0x80 ∧ (0x80 : Byte).toNat / 64 = 2 ∧
    readEntry { queued with qTail := 1 } (1 % queued.cfg.queueCap) = some 0x40 ∧ (0x40 : Byte).toNat / 64 = 1 := by decide

theorem witness_reserved_class : (0x3F : Byte).toNat / 64 = 0 ∧ (0xC0 : Byte).toNat / 64 = 3 ∧
    readEntry { queued with mem := { hist := [], qBuf := [(0, 0x3F)] } } (queued.qTail.toNat % queued.cfg.queueCap) =
      some 0x3F := by decide

theorem witness_fifo : QueueInv queued ∧ QueueInv (full queued) ∧ ∃ t, exec .pop queued = .next t :=
  ⟨by unfold QueueInv; decide, by unfold QueueInv; decide, _, rfl⟩

theorem witness_srd : (14 : Byte).toNat ≤ 14 ∧ (13 : Byte).toNat < 14 ∧ 14 < (15 : Byte).toNat ∧
    (readSlot queued ((0xF0 : Byte).toNat % queued.cfg.numLines)).isSome = true := by decide

theorem witness_idempotent_reads : (∃ t, exec .wrd fresh = .next t) ∧ (∃ t, exec (.srd 5 0) fresh = .next t) ∧
    (∃ t, exec (.drd 3) fresh = .next t) ∧ ∃ t, exec .pop queued = .next t := ⟨⟨_, rfl⟩, ⟨_, rfl⟩, ⟨_, rfl⟩, ⟨_, rfl⟩⟩

/-- Just below the timeout, at it, and the edge that ends it. -/
theorem witness_watchdog_level : 1 ≤ profileT.wdgTimeoutTicks.toNat ∧ ¬ watchdogTimeout { fresh with wdg := 29 } ∧
    watchdogTimeout { fresh with wdg := 30 } ∧ edgeServiced { waiting with wdg := 31 } :=
  ⟨by decide, by unfold watchdogTimeout; decide, by unfold watchdogTimeout; decide, rfl, by decide⟩

theorem witness_watchdog_moves : (∃ t, exec .mst fresh = .next t ∧ fresh.wdg.toNat < t.wdg.toNat) ∧
    ∃ t, exec (.grd1 9 0) { waiting with wdg := 31 } = .next t ∧ t.wdg.toNat < 31 :=
  ⟨⟨_, rfl, by decide⟩, ⟨_, rfl, by decide⟩⟩

theorem witness_drd : ∀ k ∈ [(0 : Byte), 1, 2, 3], k.toNat ≤ 3 := by decide
theorem witness_drd_no_step : 3 < (4 : Byte).toNat := by decide

/-- The ends of both classes. -/
theorem witness_event_classes : (0x80 : Byte).toNat / 64 = 2 ∧ (0xBF : Byte).toNat / 64 = 2 ∧ (0x40 : Byte).toNat / 64 = 1 ∧
    (0x7F : Byte).toNat / 64 = 1 := by decide

theorem witness_producer_emits : ∃ t, exec (.ttk 0x40) lastNormal = .next t ∧ readEntry t 0 = some 0xA3 ∧
    readEntry lastNormal 0 ≠ some 0xA3 := ⟨_, rfl, by decide, by decide⟩

/-- An element `MST` may not write, and one it may not read in which two states differ. -/
theorem witness_access_rights : (∃ t, exec .mst fresh = .next t) ∧ (∀ a ∈ Instr.mst.agents, mayWrite a .qTail = false) ∧
    (∀ a ∈ Instr.mst.agents, mayRead a .wr = false) ∧ DifferOnlyIn .wr fresh { fresh with wr := 5 } ∧
    ∃ t, exec .tex (sampling 1) = .next t := by
  refine ⟨⟨_, rfl⟩, by decide, by decide, ⟨fun e he => ?_, rfl, rfl, rfl, rfl, rfl⟩, ⟨_, rfl⟩⟩
  cases e <;> first | exact absurd rfl he | rfl | exact fun _ => rfl

/-- The sequencer invariants hold at reset, before and in a cycle. -/
theorem sequencer_fresh : SequencerInv { fresh with gridQ := false } := ⟨by decide, by decide, by decide, by decide⟩
theorem sequencer_waiting : SequencerInv waiting := ⟨by decide, by decide, by decide, by decide⟩
theorem sequencer_last : SequencerInv (sampling 13) := ⟨by decide, by decide, by decide, by decide⟩

/-- One state and operation for each of the four transitions. -/
theorem witness_sequencer_moves :
    (∃ t, exec (.grd1 9 0) { fresh with gridQ := false } = .next t ∧ t.fsm ≠ .idleWait) ∧
    (∃ t, exec (.grd1 700 0) waiting = .next t ∧ t.fsm ≠ waiting.fsm) ∧
    (∃ t, exec (.ttk 0) (sampling 13) = .next t ∧ t.fsm ≠ .sampling) ∧
    (∃ t, exec .rst waiting = .next t ∧ t.fsm ≠ waiting.fsm) :=
  ⟨⟨_, rfl, by decide⟩, ⟨_, rfl, by decide⟩, ⟨_, rfl, by decide⟩, ⟨_, rfl, by decide⟩⟩

theorem witness_pending_cleared : ∃ t, exec (.ttk 0) (sampling 12) = .next t ∧ (sampling 12).tmrPending = true ∧
    t.tmrPending = false := ⟨_, rfl, by decide, by decide⟩

theorem witness_history_written : ∃ t, exec (.ttk 0) lastNormal = .next t ∧ readSlot t 3 ≠ readSlot lastNormal 3 :=
  ⟨_, rfl, by decide⟩

/-- A state in mid-cycle with unread events meets every invariant, and its step answers a next state. For the statements
`StepKeeps…` and `InvariantStatesNeverFault`. -/
theorem witness_invariants : Inv midCycle ∧ (∃ t, step midCycle = .next t) ∧ midCycle.handed = none := by
  refine ⟨⟨⟨by decide, by decide, by decide, by decide⟩, by unfold QueueInv; decide, by unfold CursorInv; decide,
    ⟨by decide, by decide⟩, fun j hj => queued_events j hj, fun _ => ?_, fun _ => ⟨by decide, by decide, by decide⟩⟩,
    ⟨_, rfl⟩, rfl⟩
  show ∀ q : Position, (5 : Position) ≤ q → (0x1F : Mask).getLsbD q.val = false ∧ (0x1F : Mask).getLsbD q.val = false
  decide

/-- The smallest accepted period, at the first and at the last position of a cycle. -/
theorem witness_corrections : profileT.wf = true ∧
    TimerInv { sampling 1 with period := 700, reload := 50, tmrReload := 55 } ∧
    TimerInv { sampling 13 with period := 700, reload := 44, tmrReload := 44 } ∧ (sampling 13).fsm = .sampling :=
  ⟨by decide, fun _ => ⟨by decide, by decide, by decide⟩, fun _ => ⟨by decide, by decide, by decide⟩, rfl⟩

/-- For `WholeCycleSamplesFourteenPositionsAndClassifiesOnce`: the period is exactly the floor. -/
theorem witness_whole_cycle : waiting.fsm ≠ .sampling ∧ waiting.tsValid = true ∧
    waiting.cfg.periodFloor.toNat ≤ (measuredPeriod 700 waiting).toNat := by decide

/-- Every outcome of such a cycle: NORMAL; BLANK, first and later of a run; UNCHANGED. -/
theorem witness_whole_cycle_outcomes :
    nextIs (runOps (expand (.cycle 1400 (Vector.replicate 14 0x3F))) waiting) (fun t => t.chgMask != 0 && t.nbMask != 0) ∧
    nextIs (runOps (expand (.cycle 1400 (Vector.replicate 14 0))) waiting) (fun t => t.nbMask == 0 && t.idleCnt == 0) ∧
    nextIs (runOps (expand (.cycle 1400 (Vector.replicate 14 0))) { waiting with idleRun := true })
      (fun t => t.nbMask == 0 && t.idleCnt == 1) ∧
    nextIs (runOps (expand (.cycle 1400 (Vector.replicate 14 0x3F))) { waiting with work := Vector.replicate 14 0x3F })
      (fun t => t.chgMask == 0 && t.nbMask != 0) := ⟨rfl, rfl, rfl, rfl⟩

/-- T9: three blank cycles from the first edge. -/
theorem witness_blank_run : waiting.fsm ≠ .sampling ∧ waiting.tsValid = true ∧ waiting.idleRun = false ∧
    queueCount waiting ≠ waiting.cfg.queueCap ∧ PlausiblePeriods waiting.cfg waiting.lastTs [1400, 2800, 4200] :=
  ⟨by decide, rfl, rfl, by decide, by decide, by decide, by decide, trivial⟩

/-- T8: the same line twice. -/
theorem witness_repeated_line : waiting.fsm ≠ .sampling ∧ waiting.tsValid = true ∧
    PlausiblePeriods waiting.cfg waiting.lastTs [1400, 2800] ∧
    (∃ p : Position, p.val ≤ 11 ∧ (Vector.replicate 14 (0x3F : Byte))[p.val] ≠ 0) ∧
    ∃ t1 t2, runOps (expand (.cycle 1400 (Vector.replicate 14 0x3F))) waiting = .next t1 ∧
      runOps (expand (.cycle 2800 (Vector.replicate 14 0x3F))) t1 = .next t2 :=
  ⟨by decide, rfl, ⟨by decide, by decide, trivial⟩, ⟨0, by decide, by decide⟩, _, _, rfl, rfl⟩

theorem witness_same_clock : edgeServiced { waiting with wdg := 31 } := ⟨rfl, by decide⟩

theorem witness_sample_instants : (0 : Nat) ≤ 12 ∧ (12 : Nat) ≤ 12 := by decide

/-! ## Witnesses about executions: a list of operations, then `WRD` for ever -/

/-- The state an operation leaves, or the same state if it has no step. -/
def after (i : Instr) (s : State) : State :=
  match exec i s with
  | .next t => t
  | _ => s

/-- The operations of the execution. -/
def opAt (l : List Instr) (n : Nat) : Instr := l.getD n .wrd

/-- The states of the execution. -/
def stateAt : List Instr → State → Nat → State
  | _, s, 0 => s
  | [], s, n + 1 => stateAt [] (after .wrd s) n
  | i :: l, s, n + 1 => stateAt l (after i s) n

/-- Every operation of the list completes. -/
def allNext : List Instr → State → Bool
  | [], _ => true
  | i :: l, s => nextIs (exec i s) (fun _ => true) && allNext l (after i s)

theorem exec_of_nextIs {i : Instr} {s : State} (h : nextIs (exec i s) (fun _ => true) = true) :
    exec i s = .next (after i s) := by
  unfold after
  revert h
  cases exec i s <;> simp [nextIs]

theorem stateAt_isExecution (l : List Instr) (s : State) (h : allNext l s = true) : IsExecution (stateAt l s) (opAt l) := by
  intro n
  induction n generalizing l s with
  | zero =>
    cases l with
    | nil => rfl
    | cons i l => exact exec_of_nextIs (by simp [allNext] at h; exact h.1)
  | succ n ih =>
    cases l with
    | nil => exact ih [] (after .wrd s) rfl
    | cons i l => exact ih l (after i s) (by simp [allNext] at h; exact h.2)

/-- After the list, no element changes. -/
theorem stateAt_idle (s : State) (n : Nat) (e : Element) : e.same s (stateAt [] s n) := by
  induction n generalizing s with
  | zero => cases e <;> first | rfl | exact fun _ => rfl
  | succ n ih =>
    have := ih (after .wrd s)
    cases e <;> exact this

/-- A first edge at the very top of the counter, the line low, an edge 1400 units later (V8's times). -/
def edges : List Instr := [.grd1 0xFFFFFF00 0, .grd0, .grd1 0x478 0x3F]
def edgesClock (n : Nat) : Nat := if n ≤ 1 then 0xFFFFFF00 else 0x100000478
def beforeEdges : State := { fresh with gridQ := false }

theorem witness_clock_within_wrap : IsExecution (stateAt edges beforeEdges) (opAt edges) ∧
    ClockWithinWrap (stateAt edges beforeEdges) (opAt edges) edgesClock ∧
    ServicedAt (stateAt edges beforeEdges) (opAt edges) 0 ∧ ServicedAt (stateAt edges beforeEdges) (opAt edges) 2 ∧
    ¬ ServicedAt (stateAt edges beforeEdges) (opAt edges) 1 ∧ (stateAt edges beforeEdges 2).tsValid = true := by
  refine ⟨stateAt_isExecution _ _ (by decide), ⟨?_, ?_, ?_⟩, ⟨⟨_, _, rfl⟩, rfl, by decide⟩, ⟨⟨_, _, rfl⟩, rfl, by decide⟩,
    ?_, by decide⟩
  · intro n now seg h
    match n with
    | 0 => cases h; decide
    | 1 => cases h
    | 2 => cases h; decide
    | _ + 3 => cases h
  · intro m n h; unfold edgesClock; split <;> split <;> omega
  · intro m n _ _ _ _; unfold edgesClock; split <;> split <;> omega
  · rintro ⟨⟨_, _, h⟩, -⟩; cases h

/-- A NORMAL line published in slot 3, its event dequeued, the slot read. -/
def publishAndRead : List Instr := [.ttk 0, .pop, .srd 3 0]

theorem witness_disciplined_read : IsExecution (stateAt publishAndRead lastNormal) (opAt publishAndRead) ∧
    opAt publishAndRead 2 = .srd 3 0 ∧ (3 : BitVec 4).toNat = (3 : Byte).toNat % profileT.numLines ∧
    MayReadAt (stateAt publishAndRead lastNormal) (opAt publishAndRead) 0 1 2 3 := by
  refine ⟨stateAt_isExecution _ _ (by decide), rfl, by decide,
    ⟨⟨0, rfl, ⟨rfl, rfl, rfl⟩, by decide, by decide, rfl⟩, by decide, by decide, ⟨rfl, by decide, false, by decide⟩,
      fun j h1 h2 => ?_⟩⟩
  obtain rfl : j = 1 := by omega
  refine ⟨?_, by decide⟩
  rintro ⟨v, hv, -⟩
  cases hv

/-- The last position: the timer expires once more, the tick is serviced, the timer is off from then on. -/
def lastTick : List Instr := [.tex, .ttk 0]

theorem witness_fair_timer : IsExecution (stateAt lastTick (sampling 13)) (opAt lastTick) ∧
    SequencerInv (stateAt lastTick (sampling 13) 0) ∧ TimerFair (stateAt lastTick (sampling 13)) (opAt lastTick) ∧
    TickServiceFair (stateAt lastTick (sampling 13)) (opAt lastTick) ∧
    (stateAt lastTick (sampling 13) 0).fsm = .sampling := by
  have off : ∀ n, (stateAt lastTick (sampling 13) (n + 2)).tmrEn = false := fun n =>
    (stateAt_idle (after (.ttk 0) (after .tex (sampling 13))) n .tmrEn).trans (by decide)
  refine ⟨stateAt_isExecution _ _ (by decide), sequencer_last, fun n h => ?_, fun n h => ?_, rfl⟩
  · match n with
    | 0 => exact ⟨0, le_rfl, .inl rfl⟩
    | 1 => exact ⟨2, by decide, .inr (off 0)⟩
    | n + 2 => exact absurd h (by rw [off n]; decide)
  · match n with
    | 0 => exact ⟨1, by decide, .inl ⟨0, rfl⟩⟩
    | 1 => exact ⟨1, le_rfl, .inl ⟨0, rfl⟩⟩
    | n + 2 => exact absurd h (by simp [ttkEnabled, off n])

/-- The launch premises of R151 together, from reset, with one first edge. -/
theorem witness_launch_premises :
    LaunchPremises (stateAt [.grd0, .grd1 1000 0xFF] fresh) (opAt [.grd0, .grd1 1000 0xFF]) (fun _ => 1000) := by
  have idle := fun n => stateAt_idle (after (.grd1 1000 0xFF) (after .grd0 fresh)) n
  have none : ∀ n, ¬ (∃ a b, opAt [.grd0, .grd1 1000 0xFF] n = .srd a b) := by
    rintro n ⟨a, b, h⟩
    match n with
    | 0 => cases h
    | 1 => cases h
    | _ + 2 => cases h
  refine ⟨stateAt_isExecution _ _ (by decide), fun e => ?_, by decide, fun n h => ?_, ⟨fun n now seg h => ?_, by simp, by simp⟩,
    fun n h => ?_, ⟨fun n idx k h => absurd ⟨idx, k, h⟩ (none n), fun n h e _ => ?_⟩⟩
  · cases e <;> first | rfl | exact fun _ => rfl
  · match n with
    | 0 => exact h rfl
    | 1 => exact h rfl
    | n + 2 => exact h ((idle n .qOverrun).trans rfl)
  · match n with
    | 0 => cases h
    | 1 => cases h; decide
    | _ + 2 => cases h
  · match n with
    | 0 => cases h
    | 1 => cases h
    | n + 2 => exact ⟨n + 2, le_rfl, .inr ((idle n .tmrEn).trans rfl)⟩
  · match n with
    | 0 => exact absurd h (by decide)
    | 1 => exact absurd h (by decide)
    | n + 2 =>
      have h1 := stateAt_isExecution [.grd0, .grd1 1000 0xFF] fresh (by decide) (n + 2)
      have h2 := Host.Outcome.next.inj h1
      rw [← h2]
      cases e <;> first | rfl | exact fun _ => rfl

end Sys2Proof.Machine.Test
end

section
/-!
PROOFS. The LineEvent constructor and the bytes that can stand in the queue (rule R59 of 30_encoding.md).
-/

namespace Sys2Proof.Machine

/-- The fields of a constructed event do not overlap, so `|` in rule R59's formula is a sum. -/
theorem evt_toNat (cls : BitVec 2) (executing : Bool) (idx : BitVec 4) :
    (evt cls executing idx).toNat = cls.toNat * 64 + executing.toNat * 32 + idx.toNat := by
  revert cls executing idx; decide

/-- The two forms of event the producer can build in a state (rules R100, R101). -/
def ProducerEvent (s : State) (b : Byte) : Prop :=
  ∃ executing, b = evt clsNormal executing s.wr ∨ b = evt clsIdle executing 0

/-- The four ranges of rule R59. -/
theorem ProducerEvent.ranges {s : State} {b : Byte} (h : ProducerEvent s b) :
    b.toNat = 0x40 ∨ b.toNat = 0x60 ∨ (0x80 ≤ b.toNat ∧ b.toNat ≤ 0x8F) ∨ (0xA0 ≤ b.toNat ∧ b.toNat ≤ 0xAF) := by
  have hwr := s.wr.isLt
  obtain ⟨executing, rfl | rfl⟩ := h <;> cases executing <;> simp [evt_toNat, clsNormal, clsIdle] <;> omega

/-- An entry after `PUSH` is an old one or the byte pushed (rules R107, R108). -/
theorem readEntry_push_new {b c : Byte} {s : State} {j : Nat} (h : readEntry (push b s) j = some c) :
    readEntry s j = some c ∨ c = b := by
  by_cases hf : queueCount s = s.cfg.queueCap
  · obtain ⟨-, -, hr⟩ := push_full_reads b s hf
    exact .inl (hr j ▸ h)
  · obtain ⟨-, -, hr⟩ := push_room_reads b s hf
    rw [hr] at h
    split_ifs at h
    · exact .inr (Option.some.inj h).symm
    · exact .inl h

/-- An entry after the end of a cycle is an old one or the event the line was classified to. -/
theorem readEntry_finishCycle_new {c : Byte} {s : State} {j : Nat} (h : readEntry (finishCycle s) j = some c) :
    readEntry s j = some c ∨ ProducerEvent s c := by
  rcases finishCycle_queue s with ⟨-, -, hr⟩ | ⟨b, hb, -, -, hr⟩
  · exact .inl (hr j ▸ h)
  · refine (readEntry_push_new (hr j ▸ h)).imp_right ?_
    rintro rfl
    obtain ⟨e, rfl⟩ | ⟨e, rfl, -⟩ := hb
    · exact ⟨e, .inr rfl⟩
    · exact ⟨e, .inl rfl⟩

/-- After a reset no entry is written (rule R146). -/
@[simp] theorem readEntry_resetBlock (s : State) (j : Nat) : readEntry (resetBlock s) j = none := rfl

/-- Over every operation, an entry is an old one or an event of the producer: `RST` leaves no entry, the final `TTK` alone
adds one, and every other operation leaves the queue's bytes as they were. -/
theorem readEntry_exec_new {i : Instr} {s t : State} {j : Nat} {c : Byte} (hx : exec i s = .next t)
    (h : readEntry t j = some c) : readEntry s j = some c ∨ ProducerEvent s c := by
  cases execNext_of_exec hx
  case rst => simp at h
  case finalTick v _ =>
    have hnew := readEntry_finishCycle_new (s := sample 13 v s) (by simpa using h)
    simpa [ProducerEvent] using hnew
  all_goals exact .inl (by simpa using h)

/-- Settles O41: an entry that is new is a producer's event (`readEntry_exec_new`), and those lie in the four ranges. -/
theorem producerEmitsOnlyTheFourRanges : Obligations.ProducerEmitsOnlyTheFourRanges := by
  unfold Obligations.ProducerEmitsOnlyTheFourRanges
  refine ⟨evt_toNat, fun i s t j b hx hread hold => ?_⟩
  have hnew : ProducerEvent s b := (readEntry_exec_new hx hread).resolve_left hold
  exact ⟨hnew, hnew.ranges⟩

end Sys2Proof.Machine
end

section
/-!
PROOFS. The cycle-start service (rules R70 to R80 of 40_cycle_start.md): the converse of `execNext_of_exec`, and what the
first edge ever, a masked edge and an accepted edge leave behind.
-/

namespace Sys2Proof.Machine

/-- A serviced edge runs `CS_EDGE` (rules R70, R71). -/
theorem execGrd1_of_serviced (now : Word) (seg : Byte) {s : State} (he : edgeServiced s) :
    execGrd1 now seg s = .next (deliver .nothing (csEdge now seg (lineHigh s))) := by
  obtain ⟨hgrid, hfsm⟩ := he
  simp [execGrd1, risingEdge, edgeMasked, hgrid, hfsm]

/-- Each update of `ExecNext` is the next state of `exec` whenever its conditions hold. -/
theorem exec_of_execNext {i : Instr} {s t : State} (h : ExecNext i s t) : exec i s = .next t := by
  cases h with
  | unserviced now seg _ h =>
    show execGrd1 now seg s = _
    rcases h with hgrid | hfsm
    · simp [execGrd1, risingEdge, hgrid]
    · simp [execGrd1, edgeMasked, hfsm]
  | first now seg _ he hts => exact (execGrd1_of_serviced now seg he).trans (by simp [csEdge, hts])
  | noise now seg _ h =>
    obtain ⟨he, hts, hlow⟩ := h
    have hlow : now - s.lastTs < s.cfg.periodFloor := hlow
    exact (execGrd1_of_serviced now seg he).trans (by simp [csEdge, hts, hlow])
  | accepted now seg _ h =>
    obtain ⟨he, hts, hfloor⟩ := h
    have hfloor : ¬ now - s.lastTs < s.cfg.periodFloor := Nat.not_lt.mpr hfloor
    exact (execGrd1_of_serviced now seg he).trans (by simp [csEdge, hts, hfloor])
  | tex _ h => simp [exec, execTex, texEnabled, h]
  | finalTick v _ h =>
    obtain ⟨hen, hpend, hpos⟩ := h
    simp [exec, execTtk, ttkEnabled, hen, hpend, hpos]
  | tick v _ hen hpend hpos =>
    have hpos : s.pos ≠ 13 := fun hc => by simp [hc] at hpos
    simp [exec, execTtk, ttkEnabled, hen, hpend, hpos]
  | popNone _ h => simp [exec, execPop, queueEmpty, h]
  | popSome _ h b hb hr =>
    subst hb
    simp [exec, execPop, queueEmpty, h, hr]
  | srd idx k _ h => simp [exec, execSrd, srdEnabled, h]
  | drd k _ h => simp [exec, execDrd, drdEnabled, h]
  | _ => rfl

/-- What the first edge ever may change (rule R75), with the level every `GRD1` sets (rule R70). -/
theorem firstEdge_changesOnly (r : Result) (now : Word) (s : State) :
    ChangesOnly [.wdg, .lastTs, .tsValid, .fsm, .gridQ] s (deliver r (firstEdge now (lineHigh s))) := by
  refine ⟨fun e he => ?_, rfl, rfl, rfl⟩
  cases e <;> simp [Element.same] at he ⊢

/-- The service of the first tick (rules R88, R89, R92): no correction is due at position 1, so the timer gets the plain
`reload`, whatever it held. -/
theorem firstTick_programs_plain_reload (v : Byte) {s : State} (hen : s.tmrEn = true) (hpos : s.pos = 1) :
    ∃ u w, exec .tex s = .next u ∧ exec (.ttk v) u = .next w ∧ w.reload = s.reload ∧ w.tmrReload = s.reload ∧
      w.pos = 2 := by
  have hdue : correctionDue 1 = false := by decide
  have htex := exec_of_execNext (.tex s hen)
  have httk := exec_of_execNext (.tick v (deliver .nothing (timerExpire s)) (by simpa using hen) (by simp) (by simp [hpos]))
  exact ⟨_, _, htex, httk, by simp [hpos, hdue], by simp [hpos, hdue], by simp [hpos]⟩

/-- Settles O17: the accepted edge puts the extra in `tmr_reload` alone and leaves the timer on at position 1, where
`firstTick_programs_plain_reload` takes over. -/
theorem firstTickExtraIsInTheTimerOnly : Obligations.FirstTickExtraIsInTheTimerOnly := by
  unfold Obligations.FirstTickExtraIsInTheTimerOnly
  intro s now seg hacc
  refine ⟨_, exec_of_execNext (.accepted now seg s hacc), by simp, by simp, fun v => ?_⟩
  exact firstTick_programs_plain_reload v (by simp) (by simp)

/-- Settles O13: the edge is the `first` case of `ExecNext`, with its frame. -/
theorem firstServicedEdgeOnlyRecordsItsTime : Obligations.FirstServicedEdgeOnlyRecordsItsTime := by
  unfold Obligations.FirstServicedEdgeOnlyRecordsItsTime
  intro s now seg he hts
  refine ⟨_, exec_of_execNext (.first now seg s he hts), ?_⟩
  simp [firstEdge_changesOnly]

/-- Settles O16, by the four cases of `GRD1`: without a serviced edge `wdg` stays, and the other three all set it to 0. -/
theorem everyServicedEdgeZeroesTheWatchdog : Obligations.EveryServicedEdgeZeroesTheWatchdog := by
  unfold Obligations.EveryServicedEdgeZeroesTheWatchdog
  intro s now seg
  obtain ⟨t, ht⟩ : ∃ t, exec (.grd1 now seg) s = .next t := ⟨_, rfl⟩
  refine ⟨t, ht, ?_⟩
  cases execNext_of_exec ht with
  | unserviced _ _ _ h =>
    refine ⟨fun ⟨hgrid, hfsm⟩ => ?_, fun _ _ => by simp⟩
    simp [hgrid, hfsm] at h
  | first _ _ _ he _ =>
    obtain ⟨-, hunmasked⟩ := he
    simp [hunmasked]
  | noise _ _ _ h =>
    obtain ⟨⟨-, hunmasked⟩, -⟩ := h
    simp [hunmasked]
  | accepted _ _ _ h =>
    obtain ⟨⟨-, hunmasked⟩, -⟩ := h
    simp [hunmasked]

end Sys2Proof.Machine
end

section
/-!
PROOFS. The execution bit of a queued event (rule R98 of 42_classify_publish.md): what it says of the working line, and
that both events a cycle can queue carry it.
-/

namespace Sys2Proof.Machine

/-- The execution flag compares all 8 bits of the designated position with the sentinel (rule R98). -/
theorem execFlag_iff (s : State) : execFlag s = true ↔ s.work[s.cfg.execPos.val] = s.cfg.execSentinel := beq_iff_eq

/-- If `PUSH` moves the head there was room, so the byte stands where the head was (rules R107, R108). -/
theorem readEntry_push_of_qHead_ne {b : Byte} {s : State} (h : (push b s).qHead ≠ s.qHead) :
    readEntry (push b s) (queuePos s.cfg s.qHead) = some b := by
  have hroom : queueCount s ≠ s.cfg.queueCap := fun hfull => by
    obtain ⟨hhead, -, -⟩ := push_full_reads b s hfull
    exact h hhead
  obtain ⟨-, -, hread⟩ := push_room_reads b s hroom
  simp [hread]

/-- If the end of a cycle moves the head, the line was published or was the first blank one of a run, and either way the
event queued carries the execution flag (rules R98, R100, R101). -/
theorem readEntry_finishCycle_of_qHead_ne {s : State} (h : (finishCycle s).qHead ≠ s.qHead) :
    ∃ cls idx, readEntry (finishCycle s) (queuePos s.cfg s.qHead) = some (evt cls (execFlag s) idx) := by
  by_cases hn : s.nbMask = 0
  · obtain ⟨-, -, -, -, hlater, hfirst⟩ := finishCycle_blank s hn
    have hrun : s.idleRun = false := Bool.eq_false_iff.mpr fun hr => by
      obtain ⟨hhead, -, -⟩ := hlater hr
      exact h hhead
    obtain ⟨hhead, -, hread⟩ := hfirst hrun
    exact ⟨_, _, (hread _).trans (readEntry_push_of_qHead_ne (hhead ▸ h))⟩
  · have hc : s.chgMask ≠ 0 := fun hc => by
      obtain ⟨-, -, -, hhead, -⟩ := finishCycle_unchanged s hc hn
      exact h hhead
    obtain ⟨-, -, -, -, hhead, -, hread⟩ := finishCycle_normal s hc hn
    exact ⟨_, _, (hread _).trans (readEntry_push_of_qHead_ne (hhead ▸ h))⟩

/-- Settles O25: the event queued carries the execution flag of the line after the last sample, and the end of the cycle
does not write that line. -/
theorem execBitMarksTheSentinel : Obligations.ExecBitMarksTheSentinel := by
  unfold Obligations.ExecBitMarksTheSentinel
  intro s t v hfinal hx hmoved
  obtain ⟨-, -, hpos⟩ := hfinal
  cases execNext_of_exec hx with
  | tick _ _ _ _ hlt => simp [hpos] at hlt
  | finalTick =>
    obtain ⟨cls, idx, hread⟩ := readEntry_finishCycle_of_qHead_ne (s := sample 13 v s) (by simpa using hmoved)
    refine ⟨_, by simpa using hread, ?_⟩
    rw [evt_exec, execFlag_iff]
    simp

end Sys2Proof.Machine
end

section
/-!
PROOFS. `PUSH` (rules R107, R108 of 43_queue_consumer.md): its frame on a full queue and on one with room, and that
only `RST` and the `TTK` that ends a cycle touch what it writes.
-/

namespace Sys2Proof.Machine

/-- The count of rule R45 in natural numbers. -/
theorem queueCount_eq_mod (s : State) : queueCount s = (s.qHead.toNat + 256 - s.qTail.toNat) % 256 := by
  simp only [queueCount, BitVec.toNat_sub]
  have htail := s.qTail.isLt
  omega

/-- Counting a discarded event changes the overrun counter only (rule R108). -/
theorem push_full_changesOnly (b : Byte) {s : State} (h : queueCount s = s.cfg.queueCap) :
    ChangesOnly [.qOverrun] s (push b s) := by
  rw [push_of_full b s (by simpa [queueFull] using h)]
  refine ⟨fun e he => ?_, rfl, rfl, rfl⟩
  cases e <;> simp [Element.same] at he ⊢

/-- Appending an event changes the queue's bytes and the head only, never `q_tail` (rule R107). -/
theorem push_room_changesOnly (b : Byte) {s : State} (h : queueCount s ≠ s.cfg.queueCap) :
    ChangesOnly [.qBuf, .qHead] s (push b s) := by
  rw [push_of_room b s (by simpa [queueFull] using h)]
  refine ⟨fun e he => ?_, rfl, rfl, rfl⟩
  cases e <;> simp [Element.same] at he ⊢

/-- What `PUSH` writes stays in every operation but `RST` and the `TTK` that ends a cycle. -/
theorem exec_keeps_pushed {i : Instr} {s t : State} (hx : exec i s = .next t) (hrst : i ≠ .rst)
    (hfinal : ¬ ∃ v, i = .ttk v ∧ finalTick s) :
    t.qHead = s.qHead ∧ t.qOverrun = s.qOverrun ∧ ∀ j, readEntry t j = readEntry s j := by
  cases execNext_of_exec hx
  case rst => exact absurd rfl hrst
  case finalTick v h => exact absurd ⟨v, rfl, h⟩ hfinal
  all_goals simp

/-- Settles O26: `PUSH` branches on the count (`push_full_reads`, `push_room_reads`, each with its frame), and an operation
that is neither `RST` nor the final `TTK` leaves what it writes (`exec_keeps_pushed`). -/
theorem pushAppendsOrCounts : Obligations.PushAppendsOrCounts := by
  unfold Obligations.PushAppendsOrCounts
  refine ⟨fun s b => ?_, fun i s t hx hrst hchanged => ?_⟩
  · rw [← queueCount_eq_mod, ← queuePos_eq_mod]
    refine ⟨fun hfull => ?_, fun hroom => ?_⟩
    · obtain ⟨-, hover, -⟩ := push_full_reads b s hfull
      exact ⟨by rw [hover, satInc_toNat], push_full_changesOnly b hfull⟩
    · obtain ⟨hhead, -, hread⟩ := push_room_reads b s hroom
      exact ⟨by simp [hread], fun j hj => by simp [hread, hj], by simp [hhead, BitVec.toNat_add],
        push_room_changesOnly b hroom⟩
  · by_contra hfinal
    obtain ⟨hhead, hover, hread⟩ := exec_keeps_pushed hx hrst hfinal
    simp [hhead, hover, hread] at hchanged

end Sys2Proof.Machine
end

section
/-!
PROOFS. The watchdog (rules R117 to R119 of 44_watchdog_diag.md): the timeout level, what `MST` and `WRD` leave unchanged,
and where the level begins and ends.
-/

namespace Sys2Proof.Machine

/-- `WRD`'s flag compares unsigned numbers (rule R118). -/
theorem wdgExpired_eq (s : State) : wdgExpired s = decide (s.cfg.wdgTimeoutTicks.toNat ≤ s.wdg.toNat) := by
  simp [wdgExpired, BitVec.le_def]

/-- `WRD`'s flag is the condition of rule R119. -/
theorem wdgExpired_iff (s : State) : wdgExpired s = true ↔ watchdogTimeout s := by
  rw [wdgExpired_eq, decide_eq_true_iff, watchdogTimeout]

/-- Delivering a result that answers a pure read changes no element (rule R49). -/
theorem answer_changesOnly (r : Result) (s : State) : ChangesOnly [] s (answer r s) := by
  refine ⟨fun e _ => ?_, rfl, rfl, rfl⟩
  cases e <;> simp [Element.same]

/-- The watchdog's tick changes `wdg` only (rule R117). -/
theorem tickWatchdog_changesOnly (r : Result) (s : State) : ChangesOnly [.wdg] s (deliver r (tickWatchdog s)) := by
  refine ⟨fun e he => ?_, rfl, rfl, rfl⟩
  cases e <;> simp [Element.same] at he ⊢

/-- No operation writes the configuration. -/
theorem exec_keeps_cfg {i : Instr} {s t : State} (hx : exec i s = .next t) : t.cfg = s.cfg := by
  cases execNext_of_exec hx <;> simp

/-- The level after a tick: it held before, or the tick takes `wdg` to the timeout. The saturation of rule R117 is at or
above every timeout, so it never ends the level. -/
theorem watchdogTimeout_tickWatchdog (r : Result) (s : State) :
    watchdogTimeout (deliver r (tickWatchdog s)) ↔
      watchdogTimeout s ∨ s.wdg.toNat + 1 = s.cfg.wdgTimeoutTicks.toNat := by
  have htimeout := s.cfg.wdgTimeoutTicks.isLt
  simp only [watchdogTimeout, deliver_wdg, deliver_cfg, tickWatchdog_wdg, tickWatchdog_cfg, satInc_toNat]
  omega

/-- A counter of 0 is below every timeout of at least 1. -/
theorem not_watchdogTimeout_of_wdg_zero {s : State} (h1 : 1 ≤ s.cfg.wdgTimeoutTicks.toNat) (h0 : s.wdg = 0) :
    ¬ watchdogTimeout s := by
  have hzero : s.wdg.toNat = 0 := by simp [h0]
  rw [watchdogTimeout, hzero]
  omega

/-- Settles O33: `WRD` is the `wrd` case of `ExecNext`, a pure read (`answer_changesOnly`), and its flag is the unsigned
comparison (`wdgExpired_eq`). -/
theorem wrdReadsTheWatchdog : Obligations.WrdReadsTheWatchdog := by
  unfold Obligations.WrdReadsTheWatchdog
  refine ⟨fun _ => rfl, fun s => ⟨_, exec_of_execNext (.wrd s), answer_changesOnly _ s, ?_⟩⟩
  rw [answer_out, wdgExpired_eq]

/-- Settles O35: `WRD` delivers the level (`wdgExpired_iff`), a tick keeps it or begins it at the timeout
(`watchdogTimeout_tickWatchdog`), and a serviced edge leaves `wdg` at 0 (O16), below a timeout of at least 1. -/
theorem watchdogTimeoutIsALevel : Obligations.WatchdogTimeoutIsALevel := by
  unfold Obligations.WatchdogTimeoutIsALevel
  intro s htimeout
  have htick := watchdogTimeout_tickWatchdog .nothing s
  refine ⟨⟨_, _, exec_of_execNext (.wrd s), rfl, wdgExpired_iff s⟩,
    ⟨_, exec_of_execNext (.mst s), tickWatchdog_changesOnly _ s, fun h => htick.mpr (.inl h), fun h => ?_⟩,
    fun now seg he => ?_⟩
  · rw [htick, or_iff_right h]
  · obtain ⟨t, ht, hzero, -⟩ := everyServicedEdgeZeroesTheWatchdog s now seg
    exact ⟨t, ht, not_watchdogTimeout_of_wdg_zero (exec_keeps_cfg ht ▸ htimeout) (hzero he)⟩

end Sys2Proof.Machine
end

section
/-!
PROOFS. The stimulus records (rules R61 to R64 of 30_encoding.md): decode and encode agree both ways, and a step of the
machine is the operation that its next record, or its handed byte, spells.
-/

namespace Sys2Proof.Machine

/-- A record is read back whatever follows it (rule R62). -/
theorem decodeStimulus_encode {i : Instr} (rest : List Byte) (h : i.space = .stimulus) :
    decodeStimulus (encode i ++ rest) = .ok (i, rest) := by
  cases i with
  | grd1 now seg =>
    show Except.ok (Instr.grd1 (timeOfBytes (timeByte now 0) (timeByte now 1) (timeByte now 2) (timeByte now 3)) seg,
      rest) = _
    rw [timeOfBytes_timeByte]
  | evNormal executing idx => cases h
  | evIdle executing => cases h
  | _ => rfl

/-- The byte of a LineEvent row is read back by the consumer (rules R59, R60). -/
theorem decodeEvent_encode {i : Instr} (h : i.space = .lineEvent) : ∃ b, encode i = [b] ∧ decodeEvent b = .ok i := by
  cases i with
  | evNormal executing idx => exact ⟨_, rfl, by simp only [decodeEvent, eventClass_evt, if_true, evt_exec, evt_idx]⟩
  | evIdle executing =>
    have hcls : clsIdle ≠ clsNormal := by decide
    exact ⟨_, rfl, by simp only [decodeEvent, eventClass_evt, hcls, if_false, if_true, evt_exec]⟩
  | _ => cases h

/-- Settles O4: each stimulus row by its record, each LineEvent row by its byte. -/
theorem decodeOfEncodeIsTheRow : Obligations.DecodeOfEncodeIsTheRow := by
  unfold Obligations.DecodeOfEncodeIsTheRow
  exact ⟨fun _ rest => decodeStimulus_encode rest, fun _ => decodeEvent_encode⟩

/-- A trace that decodes begins with the record of the operation, by the opcode byte (rules R61 to R63). -/
theorem eq_encode_of_decodeStimulus {trace rest : List Byte} {i : Instr} (h : decodeStimulus trace = .ok (i, rest)) :
    i.space = .stimulus ∧ trace = encode i ++ rest := by
  cases trace with
  | nil => cases h
  | cons op bytes =>
    have hbyte : BitVec.ofNat 8 op.toNat = op := by simp
    simp only [decodeStimulus] at h
    split at h
    case h_3 hop =>
      rw [hop] at hbyte
      subst hbyte
      split at h
      case h_1 n0 n1 n2 n3 seg more =>
        cases h
        obtain ⟨h0, h1, h2, h3⟩ := timeByte_timeOfBytes n0 n1 n2 n3
        exact ⟨rfl, by simp [encode, h0, h1, h2, h3]⟩
      case h_2 => cases h
    case h_12 => cases h
    all_goals
      rename_i hop
      rw [hop] at hbyte
      subst hbyte
      repeat' split at h
      all_goals cases h
      all_goals exact ⟨rfl, rfl⟩

/-- Settles O5: the trace is the record (`eq_encode_of_decodeStimulus`), whose length is that of the table. -/
theorem decodedTraceBeginsWithTheRecord : Obligations.DecodedTraceBeginsWithTheRecord := by
  unfold Obligations.DecodedTraceBeginsWithTheRecord
  intro trace i rest h
  obtain ⟨hspace, htrace⟩ := eq_encode_of_decodeStimulus h
  exact ⟨hspace, htrace, by cases i <;> rfl⟩

/-- The opcode bytes without a row are rejected by name (rule R64). -/
theorem decodeStimulus_unknown {op : Byte} (rest : List Byte) (h : 0x0B ≤ op.toNat) :
    decodeStimulus (op :: rest) = .error (.unknownOpcode op) := by
  simp only [decodeStimulus]
  split
  case h_12 => rfl
  all_goals omega

/-- The stimulus decoder never answers the event decoder's rejection. -/
theorem decodeStimulus_ne_reservedClass (trace : List Byte) (b : Byte) :
    decodeStimulus trace ≠ .error (.reservedClass b) := by
  unfold decodeStimulus
  repeat' split
  all_goals simp

/-- With nothing handed over, a step runs the record at the head of the trace (rule R14). -/
theorem step_of_decodeStimulus {s : State} {i : Instr} {rest : List Byte} (hh : s.handed = none)
    (h : decodeStimulus s.trace = .ok (i, rest)) : step s = exec i (setTrace rest s) := by
  simp [step, fetch, hh, h]

/-- A handed byte is decoded and run before the trace (rule R60; log 2). -/
theorem step_of_decodeEvent {s : State} {i : Instr} {b : Byte} (hh : s.handed = some b) (h : decodeEvent b = .ok i) :
    step s = exec i (setHanded none s) := by
  simp [step, fetch, hh, h]

/-- Settles O1: what `fetch` decodes is what `exec` runs, on the state with those bytes consumed. -/
theorem stepRunsTheDecodedOperation : Obligations.StepRunsTheDecodedOperation := by
  unfold Obligations.StepRunsTheDecodedOperation
  exact ⟨fun _ _ _ => step_of_decodeStimulus, fun _ _ _ => step_of_decodeEvent⟩

/-- Placing a record puts exactly its bytes before the trace, and drops a handed byte (log 1). -/
theorem placeBytes_of_decodeStimulus {bytes rest : List Byte} {i : Instr} (s : State)
    (h : decodeStimulus bytes = .ok (i, rest)) :
    placeBytes bytes s = setHanded none (setTrace (encode i ++ s.trace) s) := by
  obtain ⟨-, hbytes⟩ := eq_encode_of_decodeStimulus h
  simp only [placeBytes, h]
  simp [hbytes]

/-- A placed record is the next operation, and leaves the trace that followed it. -/
theorem step_placeBytes_stimulus {bytes rest : List Byte} {i : Instr} (s : State)
    (h : decodeStimulus bytes = .ok (i, rest)) : step (placeBytes bytes s) = exec i (setHanded none s) := by
  obtain ⟨hspace, -⟩ := eq_encode_of_decodeStimulus h
  rw [placeBytes_of_decodeStimulus s h]
  exact step_of_decodeStimulus rfl (decodeStimulus_encode s.trace hspace)

/-- A placed event byte is the next thing the consumer decodes. -/
theorem step_placeBytes_event {bytes : List Byte} {b : Byte} {r : Reject} {i : Instr} (s : State)
    (hr : decodeStimulus (b :: bytes) = .error r) (h : decodeEvent b = .ok i) :
    step (placeBytes (b :: bytes) s) = exec i (setHanded none s) := by
  simp only [placeBytes, hr, h]
  exact step_of_decodeEvent rfl h

/-- Settles O2: the word spells a record or, if the stimulus decoder rejects it, an event byte. -/
theorem placedTableWordRunsNext : Obligations.PlacedTableWordRunsNext := by
  unfold Obligations.PlacedTableWordRunsNext State.withFetchWord decodeTableWord
  intro s nbits w i h
  generalize tableBytes nbits w = bytes at h ⊢
  cases hstim : decodeStimulus bytes with
  | ok p =>
    simp only [hstim, Option.some.injEq] at h
    exact h ▸ step_placeBytes_stimulus s hstim
  | error r =>
    simp only [hstim] at h
    cases bytes with
    | nil => cases h
    | cons b bytes =>
      cases hev : decodeEvent b with
      | error e => simp [hev] at h
      | ok j =>
        simp only [hev, Option.some.injEq] at h
        exact h ▸ step_placeBytes_event s hstim hev

/-- Settles O3, by evaluating the decoder on the seven words. -/
theorem writtenOutWordsDecodeRight : Obligations.WrittenOutWordsDecodeRight := by
  unfold Obligations.WrittenOutWordsDecodeRight
  decide

/-- Settles O6: the decoder rejects the byte, and the step passes the rejection on as a refusal. -/
theorem unknownOpcodesAreRejected : Obligations.UnknownOpcodesAreRejected := by
  unfold Obligations.UnknownOpcodesAreRejected
  intro op rest hop
  have hdec := decodeStimulus_unknown rest hop
  exact ⟨hdec, fun s hh htrace => by simp [step, fetch, hh, htrace, hdec, rejected]⟩

/-- No operation touches the byte handed to the consumer's decoder. -/
theorem exec_keeps_handed {i : Instr} {s t : State} (hx : exec i s = .next t) : t.handed = s.handed := by
  cases execNext_of_exec hx <;> simp

/-- A step of a trace that begins with a record is the operation, run with the bytes after it. -/
theorem step_setTrace_encode {i : Instr} {s : State} (rest : List Byte) (hi : i.space = .stimulus) (hh : s.handed = none) :
    step (setTrace (encode i ++ rest) s) = outcomeWithTrace rest (exec i s) := by
  have hdec : decodeStimulus (setTrace (encode i ++ rest) s).trace = .ok (i, rest) := decodeStimulus_encode rest hi
  exact (step_of_decodeStimulus (s := setTrace (encode i ++ rest) s) hh hdec).trans (exec_setTrace i rest s)

/-- Settles O7, by induction on the operations: a step takes one record (`step_setTrace_encode`), and no operation reads or
writes the trace (`exec_setTrace`). -/
theorem runningATraceRunsItsOperations : Obligations.RunningATraceRunsItsOperations := by
  unfold Obligations.RunningATraceRunsItsOperations
  intro ops rest s hops hh
  induction ops generalizing s with
  | nil => rfl
  | cons i ops ih =>
    have hi : i.space = .stimulus := hops i List.mem_cons_self
    have htrace : traceBytes (i :: ops) ++ rest = encode i ++ (traceBytes ops ++ rest) := by simp [traceBytes]
    have hstep := step_setTrace_encode (traceBytes ops ++ rest) hi hh
    rw [htrace, List.length_cons]
    simp only [Host.Core.run, runOps]
    rw [show core.step = step from rfl, hstep, exec_setTrace]
    cases hx : exec i s with
    | next t => exact ih t (fun j hj => hops j (List.mem_cons_of_mem i hj)) ((exec_keeps_handed hx).trans hh)
    | fault f => rfl
    | refused r => rfl

end Sys2Proof.Machine
end

section
/-!
PROOFS. The unread entries of the queue (rules R44, R45, R107 to R109 of 20_memory.md and 43_queue_consumer.md): their
number, their positions and their bytes after `PUSH` and after `POP`.
-/

namespace Sys2Proof.Machine

/-- The count depends on the two indices only. -/
theorem queueCount_congr {s t : State} (hhead : t.qHead = s.qHead) (htail : t.qTail = s.qTail) :
    queueCount t = queueCount s := by
  simp [queueCount, hhead, htail]

/-- An unread entry depends on the tail, the capacity and the queue's bytes only. -/
theorem unreadAt_congr {s t : State} (hcfg : t.cfg = s.cfg) (htail : t.qTail = s.qTail)
    (hread : ∀ j, readEntry t j = readEntry s j) (j : Nat) : unreadAt t j = unreadAt s j := by
  simp [unreadAt, hcfg, htail, hread]

/-- The new entry's place is the one after the last unread entry. -/
theorem queuePos_head (s : State) : queuePos s.cfg s.qHead = queuePos s.cfg (s.qTail + BitVec.ofNat 8 (queueCount s)) := by
  rw [← qHead_eq]

/-- Entries fewer than `QUEUE_CAP` places apart have different positions (rule R44). -/
theorem queuePos_ne_of_lt {c : Config} {a : Byte} {j k : Nat} (hjk : j < k) (hk : k < j + c.queueCap) :
    queuePos c (a + BitVec.ofNat 8 j) ≠ queuePos c (a + BitVec.ofNat 8 k) := by
  rw [queuePos_add, queuePos_add]
  intro heq
  have hdvd : c.queueCap ∣ (a.toNat + k) - (a.toNat + j) := (Nat.modEq_iff_dvd' (by omega)).mp heq
  have hle := Nat.le_of_dvd (by omega) hdvd
  omega

/-- A full queue keeps its count, a queue with room has one entry more (rules R107, R108). -/
theorem queueCount_push {s : State} (h : QueueInv s) (b : Byte) :
    queueCount (push b s) = if queueCount s < s.cfg.queueCap then queueCount s + 1 else queueCount s := by
  have hcap := queueCap_le s.cfg
  unfold QueueInv at h
  split_ifs with hroom
  · obtain ⟨hhead, -, -⟩ := push_room_reads b s hroom.ne
    have hmod := queueCount_eq_mod s
    rw [queueCount_eq_mod, hhead, push_qTail, BitVec.toNat_add]
    have hone : (1 : Byte).toNat = 1 := rfl
    have htail := s.qTail.isLt
    omega
  · obtain ⟨hhead, -, -⟩ := push_full_reads b s (by omega)
    exact queueCount_congr hhead (push_qTail b s)

/-- `PUSH` leaves the entries that are unread (rule R107). -/
theorem unreadAt_push_of_lt {s : State} (h : QueueInv s) (b : Byte) {j : Nat} (hj : j < queueCount s) :
    unreadAt (push b s) j = unreadAt s j := by
  by_cases hfull : queueCount s = s.cfg.queueCap
  · obtain ⟨-, -, hread⟩ := push_full_reads b s hfull
    exact unreadAt_congr (push_cfg b s) (push_qTail b s) hread j
  · obtain ⟨-, -, hread⟩ := push_room_reads b s hfull
    unfold QueueInv at h
    have hne : queuePos s.cfg (s.qTail + BitVec.ofNat 8 j) ≠ queuePos s.cfg s.qHead := by
      rw [queuePos_head]
      exact queuePos_ne_of_lt hj (by omega)
    simp [unreadAt, hread, hne]

/-- With room, the entry after the unread ones is the byte pushed (rule R107). -/
theorem unreadAt_push_last {s : State} (b : Byte) (hroom : queueCount s ≠ s.cfg.queueCap) :
    unreadAt (push b s) (queueCount s) = some b := by
  obtain ⟨-, -, hread⟩ := push_room_reads b s hroom
  simp [unreadAt, hread, ← qHead_eq]

/-- Popping takes one entry off the count (rules R45, R109). -/
theorem queueCount_advanceTail {s : State} (h : s.qHead ≠ s.qTail) : queueCount (advanceTail s) + 1 = queueCount s := by
  have hne : queueCount s ≠ 0 := mt (queueCount_eq_zero s).mp h
  have hmod := queueCount_eq_mod s
  rw [queueCount_eq_mod (advanceTail s), advanceTail_qHead, advanceTail_qTail, BitVec.toNat_add]
  have hone : (1 : Byte).toNat = 1 := rfl
  have hhead := s.qHead.isLt
  have htail := s.qTail.isLt
  omega

/-- Popping moves every later entry one place forward (rule R109). -/
theorem unreadAt_advanceTail (s : State) (j : Nat) : unreadAt (advanceTail s) j = unreadAt s (j + 1) := by
  have hidx : s.qTail + 1 + BitVec.ofNat 8 j = s.qTail + BitVec.ofNat 8 (j + 1) := by
    rw [Nat.add_comm j 1, BitVec.ofNat_add, BitVec.add_assoc]
    rfl
  simp only [unreadAt, readEntry_advanceTail, advanceTail_cfg, advanceTail_qTail, hidx]

/-- The oldest entry is the one at the tail. -/
theorem unreadAt_zero (s : State) : unreadAt s 0 = readEntry s (queuePos s.cfg s.qTail) := by simp [unreadAt]

/-- The list of unread entries after `PUSH` (rules R107, R108). -/
theorem unread_push {s : State} (h : QueueInv s) (b : Byte) :
    unread (push b s) = if queueCount s < s.cfg.queueCap then unread s ++ [some b] else unread s := by
  have hold : (List.range (queueCount s)).map (unreadAt (push b s)) = unread s :=
    List.map_congr_left fun j hj => unreadAt_push_of_lt h b (List.mem_range.mp hj)
  rw [unread, queueCount_push h b]
  split_ifs with hroom
  · rw [List.range_succ, List.map_append, hold, List.map_singleton, unreadAt_push_last b hroom.ne]
  · exact hold

/-- The list of unread entries before and after the tail moves (rule R109). -/
theorem unread_advanceTail {s : State} (h : s.qHead ≠ s.qTail) : unread s = unreadAt s 0 :: unread (advanceTail s) := by
  rw [unread, ← queueCount_advanceTail h, List.range_succ_eq_map, List.map_cons, List.map_map]
  congr 1
  exact List.map_congr_left fun j _ => (unreadAt_advanceTail s j).symm

/-- No unread entry means the indices agree (rule R45). -/
theorem unread_eq_nil {s : State} (h : s.qHead = s.qTail) : unread s = [] := by
  simp [unread, (queueCount_eq_zero s).mpr h]

/-- Settles O29: `PUSH` by `unread_push`, and `POP` either finds no entry or takes the first (`unread_advanceTail`). -/
theorem queueIsFirstInFirstOut : Obligations.QueueIsFirstInFirstOut := by
  unfold Obligations.QueueIsFirstInFirstOut
  refine fun s hq => ⟨unread_push hq, fun t hx => ?_⟩
  cases execNext_of_exec hx with
  | popNone _ hempty => exact .inl ⟨unread_eq_nil hempty, rfl, unread_eq_nil hempty⟩
  | popSome _ hne b hb hr =>
    refine .inr ⟨_, _, unread_advanceTail hne, rfl, fun x hx => ?_⟩
    rw [unreadAt_zero] at hx
    simp [hb, readEvent, hx]

/-- Settles O30: positions are indices modulo `QUEUE_CAP`, which divides 256. -/
theorem queuePositionsWrapWithoutAJump : Obligations.QueuePositionsWrapWithoutAJump := by
  unfold Obligations.QueuePositionsWrapWithoutAJump
  refine fun c i => ⟨queuePos_lt c i, ?_⟩
  rw [show i + 1 = i + BitVec.ofNat 8 1 from rfl, queuePos_add, queuePos_eq_mod, Nat.mod_add_mod]

end Sys2Proof.Machine
end

section
/-!
PROOFS. The event byte (rules R55 to R60 of 30_encoding.md) as numbers, and the guards of the operations (rules R61, R126).
-/

namespace Sys2Proof.Machine

/-- The class is the two upper bits (rule R55). -/
theorem eventClass_toNat (b : Byte) : (eventClass b).toNat = b.toNat / 64 := by
  have hb := b.isLt
  simp only [eventClass, BitVec.extractLsb'_toNat, Nat.shiftRight_eq_div_pow]
  omega

/-- A class is NORMAL when the two upper bits are `0b10` (rule R56). -/
theorem eventClass_eq_normal (b : Byte) : eventClass b = clsNormal ↔ b.toNat / 64 = 2 := by
  rw [← BitVec.toNat_inj, eventClass_toNat]
  rfl

/-- A class is IDLE when the two upper bits are `0b01` (rule R56). -/
theorem eventClass_eq_idle (b : Byte) : eventClass b = clsIdle ↔ b.toNat / 64 = 1 := by
  rw [← BitVec.toNat_inj, eventClass_toNat]
  rfl

/-- The reserved classes are the other two (rule R60). -/
theorem eventReserved_iff (b : Byte) : eventReserved b = true ↔ b.toNat / 64 = 0 ∨ b.toNat / 64 = 3 := by
  have hb := b.isLt
  simp only [eventReserved, Bool.and_eq_true, bne_iff_ne, ne_eq, eventClass_eq_normal, eventClass_eq_idle]
  omega

/-- The producer's bytes are of no reserved class (rule R59). -/
theorem eventReserved_of_queuedEventOk {s : State} {b : Byte} (h : queuedEventOk s b) : eventReserved b = false := by
  obtain ⟨executing, rfl⟩ | ⟨executing, idx, rfl, -⟩ := h <;> simp [eventReserved]

/-- While the unread events are the producer's, `POP` finds no reserved byte (93_implementation_defined.md U1). -/
theorem oldest_not_reserved {s : State} (h : EventsInv s) (hne : s.qHead ≠ s.qTail) :
    eventReserved (readEvent s (queuePos s.cfg s.qTail)) = false := by
  have hpos : 0 < queueCount s := Nat.pos_of_ne_zero (mt (queueCount_eq_zero s).mp hne)
  obtain ⟨b, hread, hok⟩ := h 0 hpos
  rw [unreadAt_zero] at hread
  simp [readEvent, hread, eventReserved_of_queuedEventOk hok]

/-- An enabled operation completes (rule R126). -/
theorem exec_of_enabled {i : Instr} {s : State} (hev : EventsInv s) (h : enabled i s = true) :
    ∃ t, exec i s = .next t := by
  cases i with
  | tex => exact ⟨_, exec_of_execNext (.tex s h)⟩
  | ttk v =>
    obtain ⟨hen, hpend⟩ : s.tmrEn = true ∧ s.tmrPending = true := by simpa [enabled] using h
    rcases execTtk_cases v s with ⟨hoff, -⟩ | ⟨-, -, -, hx⟩ | ⟨-, -, -, hx⟩
    · simp [hen, hpend] at hoff
    · exact ⟨_, hx⟩
    · exact ⟨_, hx⟩
  | pop =>
    by_cases hempty : s.qHead = s.qTail
    · exact ⟨_, exec_of_execNext (.popNone s hempty)⟩
    · exact ⟨_, exec_of_execNext (.popSome s hempty _ rfl (oldest_not_reserved hev hempty))⟩
  | srd idx k => exact ⟨_, exec_of_execNext (.srd idx k s (by simpa [enabled] using h))⟩
  | drd k => exact ⟨_, exec_of_execNext (.drd k s (by simpa [enabled] using h))⟩
  | _ => exact ⟨_, rfl⟩

/-- A disabled operation is refused by name; it is one of the four with a guard (rules R61, R64). -/
theorem exec_of_disabled {i : Instr} {s : State} (h : enabled i s = false) :
    ∃ r, exec i s = .refused r ∧
      ((i = .tex ∧ r = .texDisabled) ∨ (∃ v, i = .ttk v ∧ r = .ttkDisabled) ∨
       (∃ idx k, i = .srd idx k ∧ 14 < k.toNat ∧ r = .srdFieldOutOfRange k) ∨
       (∃ k, i = .drd k ∧ 3 < k.toNat ∧ r = .drdWordOutOfRange k)) := by
  cases i with
  | tex =>
    have hoff : s.tmrEn = false := h
    exact ⟨.texDisabled, by simp [exec, execTex, texEnabled, hoff], .inl ⟨rfl, rfl⟩⟩
  | ttk v =>
    have hoff : ttkEnabled s = false := h
    exact ⟨.ttkDisabled, by simp [exec, execTtk, hoff], .inr (.inl ⟨v, rfl, rfl⟩)⟩
  | srd idx k =>
    have hk : 14 < k.toNat := by simpa [enabled] using h
    have hoff : srdEnabled k = false := h
    exact ⟨_, by simp [exec, execSrd, hoff], .inr (.inr (.inl ⟨idx, k, rfl, hk, rfl⟩))⟩
  | drd k =>
    have hk : 3 < k.toNat := by simpa [enabled] using h
    have hoff : drdEnabled k = false := h
    exact ⟨_, by simp [exec, execDrd, hoff], .inr (.inr (.inr ⟨k, rfl, hk, rfl⟩))⟩
  | _ => cases h

/-- Settles O8, by the guard: `exec_of_enabled`, which needs the unread events for `POP` alone, and `exec_of_disabled`. -/
theorem enabledOperationsCompleteAndDisabledOnesHaveNoStep :
    Obligations.EnabledOperationsCompleteAndDisabledOnesHaveNoStep := by
  unfold Obligations.EnabledOperationsCompleteAndDisabledOnesHaveNoStep
  exact fun _ _ hev => ⟨exec_of_enabled hev, exec_of_disabled⟩

/-- While the unread events are the producer's, no operation faults (rule R126). -/
theorem exec_ne_fault {i : Instr} {s : State} (hev : EventsInv s) (f : Fault) : exec i s ≠ .fault f := by
  cases hen : enabled i s with
  | true =>
    obtain ⟨t, hx⟩ := exec_of_enabled hev hen
    simp [hx]
  | false =>
    obtain ⟨r, hx, -⟩ := exec_of_disabled hen
    simp [hx]

end Sys2Proof.Machine
end

section
/-!
PROOFS. The invariants (rules R20, R21, R36, R41, R45, R52, R59, R92): each holds at reset, every operation keeps it, and
so does every step, which is an operation on the state with its bytes consumed.
-/

namespace Sys2Proof.Machine

/-- What every operation keeps every step keeps, if it does not depend on the trace or the handed byte (rule R14). -/
theorem step_keeps {P : State → Prop} {s t : State} (hexec : ∀ i u, P u → exec i u = .next t → P t)
    (hfetch : ∀ tr hd, P s → P (setHanded hd (setTrace tr s))) (hP : P s) (hstep : step s = .next t) : P t := by
  obtain ⟨i, tr, hd, hx⟩ := step_next hstep
  exact hexec i _ (hfetch tr hd hP) hx

/-! The sequencer (rule R20). -/

theorem SequencerInv.congr {s t : State} (h : SequencerInv s) (hfsm : t.fsm = s.fsm) (hpos : t.pos = s.pos)
    (hen : t.tmrEn = s.tmrEn) (hts : t.tsValid = s.tsValid) : SequencerInv t := by
  obtain ⟨h1, h2, h3, h4⟩ := h
  constructor <;> simpa only [hfsm, hpos, hen, hts]

/-- An enabled timer means a cycle is in progress, past its first sample (rule R20). -/
theorem SequencerInv.of_tmrEn {s : State} (h : SequencerInv s) (hen : s.tmrEn = true) :
    s.fsm = .sampling ∧ 1 ≤ s.pos.val :=
  have hfsm := h.samplingIffEnabled.mpr hen
  ⟨hfsm, h.samplingIffPos.mp hfsm⟩

/-- Outside a cycle the position is 0 and the timer off (rule R20). -/
theorem SequencerInv.of_not_sampling {s : State} (h : SequencerInv s) (hfsm : s.fsm ≠ .sampling) :
    s.pos = 0 ∧ s.tmrEn = false := by
  have hpos : ¬ 1 ≤ s.pos.val := mt h.samplingIffPos.mpr hfsm
  exact ⟨Fin.ext (by simp; omega), Bool.eq_false_iff.mpr (mt h.samplingIffEnabled.mpr hfsm)⟩

/-- Outside a cycle, position 0 and a stopped timer meet the invariant, if an edge has been seen or FIRST_EDGE has not been
reached. -/
theorem sequencerInv_of_stopped {s : State} (hfsm : s.fsm ≠ .sampling) (hpos : s.pos = 0) (hen : s.tmrEn = false)
    (hts : s.tsValid = true ∨ s.fsm = .idleWait) : SequencerInv s := by
  refine ⟨by simp [hfsm, hpos], by simp [hfsm, hen], fun h => ?_, fun h => ?_⟩
  · simpa [h] using hts
  · simpa [h] using hts

/-- The next position is one more, before the last (rule R89). -/
theorem position_succ_val {p : Position} (h : p.val < 13) : (p + 1).val = p.val + 1 := by
  simp only [Fin.val_add, Fin.val_one]
  omega

theorem exec_keeps_sequencerInv {i : Instr} {s t : State} (h : SequencerInv s) (hx : exec i s = .next t) :
    SequencerInv t := by
  cases execNext_of_exec hx
  case rst => exact sequencerInv_of_stopped (by simp) (by simp) (by simp) (by simp)
  case first now seg he hts =>
    obtain ⟨-, hunmasked⟩ := he
    obtain ⟨hpos, hen⟩ := h.of_not_sampling hunmasked
    exact sequencerInv_of_stopped (by simp) (by simpa using hpos) (by simpa using hen) (by simp)
  case accepted now seg hacc =>
    obtain ⟨-, hts, -⟩ := hacc
    constructor <;> simp [hts]
  case finalTick v hfinal =>
    refine sequencerInv_of_stopped ?_ ?_ ?_ ?_ <;> simp
  case tick v hen hpend hpos =>
    obtain ⟨hfsm, -⟩ := h.of_tmrEn hen
    have hts : s.tsValid = true := by
      by_contra hts
      simpa [hfsm] using h.idleBeforeFirstEdge (by simpa using hts)
    constructor <;> simp [hfsm, hen, hts, position_succ_val hpos]
  all_goals exact h.congr (by simp) (by simp) (by simp) (by simp)

/-- Settles O47: every operation keeps the invariant, which reads neither the trace nor the handed byte. -/
theorem stepKeepsTheSequencerInvariant : Obligations.StepKeepsTheSequencerInvariant := by
  unfold Obligations.StepKeepsTheSequencerInvariant
  exact fun s t => step_keeps (fun i u => exec_keeps_sequencerInv) (fun tr hd h => h.congr rfl rfl rfl rfl)

/-! The number of unread entries (rule R45). -/

theorem QueueInv.congr {s t : State} (h : QueueInv s) (hcfg : t.cfg = s.cfg) (hhead : t.qHead = s.qHead)
    (htail : t.qTail = s.qTail) : QueueInv t := by
  unfold QueueInv
  rw [queueCount_congr hhead htail, hcfg]
  exact h

/-- After a reset the queue is empty (rule R146). -/
@[simp] theorem queueCount_resetBlock (s : State) : queueCount (resetBlock s) = 0 := by simp [queueCount]

theorem push_keeps_queueInv {s : State} (h : QueueInv s) (b : Byte) : QueueInv (push b s) := by
  unfold QueueInv at h ⊢
  rw [queueCount_push h, push_cfg]
  split_ifs <;> omega

/-- The end of a cycle pushes at most one event (rule R101). -/
theorem finishCycle_keeps_queueInv {s : State} (h : QueueInv s) : QueueInv (finishCycle s) := by
  rcases finishCycle_queue s with ⟨hhead, -, -⟩ | ⟨b, -, hhead, -, -⟩
  · exact h.congr (by simp) hhead (by simp)
  · exact (push_keeps_queueInv h b).congr (by simp) hhead (by simp)

theorem exec_keeps_queueInv {i : Instr} {s t : State} (h : QueueInv s) (hx : exec i s = .next t) : QueueInv t := by
  cases execNext_of_exec hx
  case rst => simp [QueueInv]
  case finalTick v _ =>
    have hsampled : QueueInv (sample 13 v s) := h.congr (by simp) (by simp) (by simp)
    exact (finishCycle_keeps_queueInv hsampled).congr (by simp) (by simp) (by simp)
  case popSome b hr hne hb =>
    have hcount := queueCount_advanceTail hne
    unfold QueueInv at h ⊢
    simp only [queueCount_deliver, deliver_cfg, advanceTail_cfg]
    omega
  all_goals exact h.congr (by simp) (by simp) (by simp)

/-- Settles O48: an operation adds one entry at most, and only with room (`exec_keeps_queueInv`). -/
theorem stepKeepsTheQueueWithinItsCapacity : Obligations.StepKeepsTheQueueWithinItsCapacity := by
  unfold Obligations.StepKeepsTheQueueWithinItsCapacity
  exact fun s t => step_keeps (fun i u => exec_keeps_queueInv) (fun tr hd h => h.congr rfl rfl rfl)

/-! The cursor and the canonical form of memory (rules R36, R41). -/

/-- The two invariants that publication keeps together: the slot it writes is the one at the cursor. -/
def CursorMemoryInv (s : State) : Prop := CursorInv s ∧ MemoryInv s

theorem CursorMemoryInv.congr {s t : State} (h : CursorMemoryInv s) (hcfg : t.cfg = s.cfg) (hwr : t.wr = s.wr)
    (hmem : t.mem = s.mem) : CursorMemoryInv t := by
  unfold CursorMemoryInv CursorInv MemoryInv
  rw [hcfg, hwr, hmem]
  exact h

theorem exec_keeps_cursorMemoryInv {i : Instr} {s t : State} (h : CursorMemoryInv s) (hx : exec i s = .next t) :
    CursorMemoryInv t := by
  cases execNext_of_exec hx
  case rst => exact ⟨numLines_pos s.cfg, rfl, rfl⟩
  case finalTick v _ =>
    obtain ⟨hcursor, hwf, hspace⟩ := h
    have hmem := finishCycle_memory (sample 13 v s) hcursor hwf hspace
    simpa [CursorMemoryInv, CursorInv, MemoryInv] using hmem
  all_goals exact h.congr (by simp) (by simp) (by simp)

/-- Settles O49: the cursor and the memory are kept together (`exec_keeps_cursorMemoryInv`). -/
theorem stepKeepsTheMemoryCanonical : Obligations.StepKeepsTheMemoryCanonical := by
  unfold Obligations.StepKeepsTheMemoryCanonical
  exact fun s t hcursor hmem => step_keeps (P := CursorMemoryInv) (fun i u => exec_keeps_cursorMemoryInv)
    (fun tr hd h => h.congr rfl rfl rfl) ⟨hcursor, hmem⟩

/-! The unread events (rules R52, R59). -/

/-- An event stays publishable while written slots stay written. -/
theorem queuedEventOk.mono {s t : State} {b : Byte} (h : queuedEventOk s b) (hcfg : t.cfg = s.cfg)
    (hslot : ∀ i, (readSlot s i).isSome = true → (readSlot t i).isSome = true) : queuedEventOk t b := by
  obtain hidle | ⟨executing, idx, hb, hlt, hwritten⟩ := h
  · exact .inl hidle
  · exact .inr ⟨executing, idx, hb, hcfg ▸ hlt, hslot _ hwritten⟩

/-- Every unread event stays as it is while the queue does and written slots stay written. -/
theorem EventsInv.mono {s t : State} (h : EventsInv s) (hcfg : t.cfg = s.cfg) (hhead : t.qHead = s.qHead)
    (htail : t.qTail = s.qTail) (hread : ∀ j, readEntry t j = readEntry s j)
    (hslot : ∀ i, (readSlot s i).isSome = true → (readSlot t i).isSome = true) : EventsInv t := by
  intro j hj
  rw [queueCount_congr hhead htail] at hj
  obtain ⟨b, hb, hok⟩ := h j hj
  exact ⟨b, (unreadAt_congr hcfg htail hread j).trans hb, hok.mono hcfg hslot⟩

/-- The end of a cycle unwrites no slot (rules R100 to R102). -/
theorem isSome_readSlot_finishCycle (s : State) (i : Nat) (h : (readSlot s i).isSome = true) :
    (readSlot (finishCycle s) i).isSome = true := by
  by_cases hn : s.nbMask = 0
  · obtain ⟨-, -, -, hslot, -⟩ := finishCycle_blank s hn
    rwa [hslot]
  · by_cases hc : s.chgMask = 0
    · obtain ⟨-, -, -, -, -, hmem⟩ := finishCycle_unchanged s hc hn
      simpa only [readSlot, hmem] using h
    · obtain ⟨-, -, -, hslot, -⟩ := finishCycle_normal s hc hn
      rw [hslot]
      split_ifs
      · rfl
      · exact h

/-- The event the end of a cycle queues is the producer's, and its slot is written before it (rule R52). -/
theorem finishCycle_keeps_eventsInv {s : State} (hq : QueueInv s) (hcursor : CursorInv s) (h : EventsInv s) :
    EventsInv (finishCycle s) := by
  have hslot := isSome_readSlot_finishCycle s
  rcases finishCycle_queue s with ⟨hhead, -, hread⟩ | ⟨b, hb, hhead, -, hread⟩
  · exact h.mono (by simp) hhead (by simp) hread hslot
  have hpushed : ∀ j, unreadAt (finishCycle s) j = unreadAt (push b s) j := unreadAt_congr (by simp) (by simp) hread
  have hcount : queueCount (finishCycle s) = queueCount (push b s) := queueCount_congr hhead (by simp)
  have hnew : queuedEventOk (finishCycle s) b := by
    obtain hidle | ⟨executing, rfl, hwritten⟩ := hb
    · exact .inl hidle
    · exact .inr ⟨executing, s.wr, rfl, by simpa [CursorInv] using hcursor, hwritten⟩
  intro j hj
  rw [hcount, queueCount_push hq] at hj
  rw [hpushed]
  by_cases hold : j < queueCount s
  · obtain ⟨c, hc, hok⟩ := h j hold
    exact ⟨c, (unreadAt_push_of_lt hq b hold).trans hc, hok.mono (by simp) hslot⟩
  · split_ifs at hj with hroom
    · obtain rfl : j = queueCount s := by omega
      exact ⟨b, unreadAt_push_last b hroom.ne, hnew⟩
    · exact absurd hj hold

theorem exec_keeps_eventsInv {i : Instr} {s t : State} (hq : QueueInv s) (hcursor : CursorInv s) (h : EventsInv s)
    (hx : exec i s = .next t) : EventsInv t := by
  cases execNext_of_exec hx
  case rst => exact fun j hj => by simp at hj
  case finalTick v _ =>
    have hsampled : EventsInv (sample 13 v s) := h.mono rfl rfl rfl (fun _ => rfl) (fun _ => id)
    have hfinished := finishCycle_keeps_eventsInv (s := sample 13 v s) hq hcursor hsampled
    exact hfinished.mono rfl rfl rfl (fun _ => rfl) (fun _ => id)
  case popSome b hr hne hb =>
    intro j hj
    have hcount := queueCount_advanceTail hne
    simp only [queueCount_deliver] at hj
    obtain ⟨c, hc, hok⟩ := h (j + 1) (by omega)
    exact ⟨c, (unreadAt_advanceTail s j).trans hc, hok.mono rfl (fun _ => id)⟩
  all_goals exact h.mono (by simp) (by simp) (by simp) (by simp) (by simp)

/-- Settles O50: an event is queued after its slot, and both stay until it is popped (`exec_keeps_eventsInv`). -/
theorem stepKeepsQueuedEventsPublished : Obligations.StepKeepsQueuedEventsPublished := by
  unfold Obligations.StepKeepsQueuedEventsPublished
  intro s t hq hcursor hev hstep
  obtain ⟨i, tr, hd, hx⟩ := step_next hstep
  have hfetched : EventsInv (setHanded hd (setTrace tr s)) := hev.mono rfl rfl rfl (fun _ => rfl) (fun _ => id)
  exact exec_keeps_eventsInv (s := setHanded hd (setTrace tr s)) hq hcursor hfetched hx

/-! The masks and the timer's registers during a cycle (rules R21, R22, R92). -/

theorem MaskInv.congr {s t : State} (h : MaskInv s) (hfsm : t.fsm = s.fsm) (hpos : t.pos = s.pos)
    (hchg : t.chgMask = s.chgMask) (hnb : t.nbMask = s.nbMask) : MaskInv t := by
  unfold MaskInv
  rw [hfsm, hpos, hchg, hnb]
  exact h

/-- Outside a cycle the invariant of the masks says nothing. -/
theorem maskInv_of_not_sampling {s : State} (h : s.fsm ≠ .sampling) : MaskInv s := fun hfsm => absurd hfsm h

/-- Folding a position's bit leaves the bits above it (rule R87). -/
theorem foldMask_getLsbD_of_lt (m : Mask) {p q : Position} (part bit : Bool) (h : p < q) :
    (foldMask m p part bit).getLsbD q.val = m.getLsbD q.val := by
  rw [foldMask_getLsbD]
  simp [h.ne']

theorem exec_keeps_maskInv {i : Instr} {s t : State} (hseq : SequencerInv s) (h : MaskInv s) (hx : exec i s = .next t) :
    MaskInv t := by
  cases execNext_of_exec hx
  case rst => exact maskInv_of_not_sampling (by simp)
  case first => exact maskInv_of_not_sampling (by simp)
  case accepted now seg _ =>
    intro _ q hq
    have hone : (1 : Position) ≤ q := hq
    have hlt : (0 : Position) < q := lt_of_lt_of_le (by decide) hone
    simp only [deliver_chgMask, deliver_nbMask, startCycle_chgMask, startCycle_nbMask, foldMask_getLsbD_of_lt _ _ _ hlt]
    simp
  case finalTick => exact maskInv_of_not_sampling (by simp)
  case tick v hen hpend hpos =>
    obtain ⟨hfsm, -⟩ := hseq.of_tmrEn hen
    intro _ q hq
    have hlt : s.pos < q := by
      rw [Fin.lt_def]
      have hq : (s.pos + 1).val ≤ q.val := hq
      rw [position_succ_val hpos] at hq
      omega
    simp only [deliver_chgMask, deliver_nbMask, nextPosition_chgMask, nextPosition_nbMask, sample_chgMask, sample_nbMask,
      foldMask_getLsbD_of_lt _ _ _ hlt]
    exact h hfsm q hlt.le
  all_goals exact h.congr (by simp) (by simp) (by simp) (by simp)

theorem TimerInv.congr {s t : State} (h : TimerInv s) (hcfg : t.cfg = s.cfg) (hfsm : t.fsm = s.fsm) (hpos : t.pos = s.pos)
    (hperiod : t.period = s.period) (hreload : t.reload = s.reload) (htmr : t.tmrReload = s.tmrReload) : TimerInv t := by
  unfold TimerInv
  rw [hcfg, hfsm, hpos, hperiod, hreload, htmr]
  exact h

/-- Outside a cycle the invariant of the timer's registers says nothing. -/
theorem timerInv_of_not_sampling {s : State} (h : s.fsm ≠ .sampling) : TimerInv s := fun hfsm => absurd hfsm h

/-- A correction is due at positions 3, 7 and 11, where the table of rule R92 takes its steps. -/
theorem corrections_succ (p : Position) (h : p.val < 13) :
    corrections (p + 1).val = corrections p.val + if correctionDue p then 1 else 0 := by
  revert p
  decide

/-- The live reload after a tick has had one correction more where one is due (rules R91, R92). -/
theorem nextPosition_reload_eq {s : State} (r : Word) {p : Position} (hp : p.val < 13)
    (h : s.reload = r - BitVec.ofNat 32 (corrections p.val) * s.cfg.corrStep) :
    (nextPosition p s).reload = r - BitVec.ofNat 32 (corrections (p + 1).val) * s.cfg.corrStep := by
  rw [nextPosition_reload, corrections_succ p hp, h]
  split_ifs
  · rw [BitVec.ofNat_add, show BitVec.ofNat 32 1 = (1 : Word) from rfl]
    ring
  · rfl

theorem exec_keeps_timerInv {i : Instr} {s t : State} (hseq : SequencerInv s) (h : TimerInv s) (hx : exec i s = .next t) :
    TimerInv t := by
  cases execNext_of_exec hx
  case rst => exact timerInv_of_not_sampling (by simp)
  case first => exact timerInv_of_not_sampling (by simp)
  case noise now seg hnoise =>
    obtain ⟨⟨-, hunmasked⟩, -⟩ := hnoise
    exact timerInv_of_not_sampling (by simpa using hunmasked)
  case accepted now seg hacc =>
    obtain ⟨-, -, hfloor⟩ := hacc
    intro _
    exact ⟨hfloor, by simp [corrections], by simp⟩
  case finalTick => exact timerInv_of_not_sampling (by simp)
  case tick v hen hpend hpos =>
    obtain ⟨hfsm, hpos1⟩ := hseq.of_tmrEn hen
    obtain ⟨hfloor, hreload, -⟩ := h hfsm
    have hlater : (s.pos + 1).val ≠ 1 := by
      rw [position_succ_val hpos]
      omega
    refine fun _ => ⟨hfloor, nextPosition_reload_eq (s := sample s.pos v s) _ hpos hreload, ?_⟩
    simp [hlater]
  all_goals exact h.congr (by simp) (by simp) (by simp) (by simp) (by simp) (by simp)

/-- Settles O51: `exec_keeps_maskInv` and `exec_keeps_timerInv`. -/
theorem stepKeepsTheCycleRegisters : Obligations.StepKeepsTheCycleRegisters := by
  unfold Obligations.StepKeepsTheCycleRegisters
  intro s t hseq hmask htimer hstep
  obtain ⟨i, tr, hd, hx⟩ := step_next hstep
  have hfetched : SequencerInv (setHanded hd (setTrace tr s)) := hseq.congr rfl rfl rfl rfl
  exact ⟨exec_keeps_maskInv hfetched hmask hx, exec_keeps_timerInv hfetched htimer hx⟩

/-! All of them together. -/

/-- With nothing handed over, a step faults only if its operation does: no record spells a reserved event (rule R64). -/
theorem step_ne_fault {s : State} (hev : EventsInv s) (hh : s.handed = none) (f : Fault) : step s ≠ .fault f := by
  intro hstep
  cases hdec : decodeStimulus s.trace with
  | ok p =>
    rw [step_of_decodeStimulus hh hdec] at hstep
    have hfetched : EventsInv (setTrace p.2 s) := hev.mono rfl rfl rfl (fun _ => rfl) (fun _ => id)
    exact exec_ne_fault hfetched f hstep
  | error e =>
    cases e with
    | reservedClass b => exact decodeStimulus_ne_reservedClass _ b hdec
    | _ => simp [step, fetch, hh, hdec, rejected] at hstep

/-- Settles O52: the statements O47 to O51 keep the invariants, and the unread events are of no reserved class. -/
theorem invariantStatesNeverFault : Obligations.InvariantStatesNeverFault := by
  unfold Obligations.InvariantStatesNeverFault
  intro s hinv
  obtain ⟨hseq, hq, hcursor, hmem, hev, hmask, htimer⟩ := hinv
  refine ⟨fun t hstep => ?_, step_ne_fault hev⟩
  obtain ⟨hcursor', hmem'⟩ := stepKeepsTheMemoryCanonical s t hcursor hmem hstep
  obtain ⟨hmask', htimer'⟩ := stepKeepsTheCycleRegisters s t hseq hmask htimer hstep
  exact ⟨stepKeepsTheSequencerInvariant s t hseq hstep, stepKeepsTheQueueWithinItsCapacity s t hq hstep, hcursor', hmem',
    stepKeepsQueuedEventsPublished s t hq hcursor hev hstep, hmask', htimer'⟩

/-- Settles O46: the queue and memory are empty, and no cycle is in progress. -/
theorem resetMeetsTheInvariants : Obligations.ResetMeetsTheInvariants := by
  unfold Obligations.ResetMeetsTheInvariants
  have hstopped : State.reset.fsm ≠ .sampling := by decide
  exact ⟨sequencerInv_of_stopped hstopped rfl rfl (.inr rfl), Nat.zero_le _, numLines_pos _, ⟨rfl, rfl⟩,
    fun j hj => absurd hj (Nat.not_lt_zero j), maskInv_of_not_sampling hstopped, timerInv_of_not_sampling hstopped⟩

/-- Settles O53: under the well-formedness of rule R10 three corrections are less than the reload they are taken from. -/
theorem correctionsNeverWrapOnWellFormedConfigurations : Obligations.CorrectionsNeverWrapOnWellFormedConfigurations := by
  unfold Obligations.CorrectionsNeverWrapOnWellFormedConfigurations
  intro s hwf htimer hfsm
  obtain ⟨hfloor, hreload, -⟩ := htimer hfsm
  have hcorr : 3 * s.cfg.corrStep.toNat < s.cfg.periodFloor.toNat / 14 := by
    simp only [Config.wf, Bool.and_eq_true, decide_eq_true_eq] at hwf
    exact hwf.2
  have hcount : corrections s.pos.val ≤ 3 := by
    unfold corrections
    split_ifs <;> omega
  have hperiod := s.period.isLt
  have htotal : corrections s.pos.val * s.cfg.corrStep.toNat ≤ 3 * s.cfg.corrStep.toNat := Nat.mul_le_mul_right _ hcount
  have hsteps : (BitVec.ofNat 32 (corrections s.pos.val) * s.cfg.corrStep).toNat =
      corrections s.pos.val * s.cfg.corrStep.toNat := by
    rw [BitVec.toNat_mul, BitVec.toNat_ofNat, Nat.mod_eq_of_lt (by omega : corrections s.pos.val < 2 ^ 32)]
    exact Nat.mod_eq_of_lt (by omega)
  have hdiv : (s.period / 14#32).toNat = s.period.toNat / 14 := BitVec.toNat_udiv
  have hvalue : s.reload.toNat = s.period.toNat / 14 - corrections s.pos.val * s.cfg.corrStep.toNat := by
    rw [hreload, BitVec.toNat_sub_of_le (by rw [BitVec.le_def, hsteps, hdiv]; omega), hsteps, hdiv]
  omega

end Sys2Proof.Machine
end

section
/-!
PROOFS. Frames: which elements each named update may change (rule R15), and how frames compose.
-/

namespace Sys2Proof.Machine

theorem Element.same_refl (e : Element) (s : State) : e.same s s := by cases e <;> simp [Element.same]

theorem Element.same_symm {e : Element} {s t : State} (h : e.same s t) : e.same t s := by
  cases e <;> simp_all [Element.same]

theorem Element.same_trans {e : Element} {s t u : State} (h1 : e.same s t) (h2 : e.same t u) : e.same s u := by
  cases e <;> simp_all [Element.same]

/-- Changes one after the other change at most what each changes. -/
theorem ChangesOnly.trans {es fs : List Element} {s t u : State} (h1 : ChangesOnly es s t) (h2 : ChangesOnly fs t u) :
    ChangesOnly (es ++ fs) s u := by
  obtain ⟨hsame1, hcfg1, htrace1, hhanded1⟩ := h1
  obtain ⟨hsame2, hcfg2, htrace2, hhanded2⟩ := h2
  refine ⟨fun e he => ?_, hcfg2.trans hcfg1, htrace2.trans htrace1, hhanded2.trans hhanded1⟩
  rw [List.mem_append, not_or] at he
  exact Element.same_trans (hsame1 e he.1) (hsame2 e he.2)

/-- A frame may list more than what changes. -/
theorem ChangesOnly.mono {es fs : List Element} {s t : State} (h : ChangesOnly es s t) (hsub : ∀ e ∈ es, e ∈ fs) :
    ChangesOnly fs s t := by
  obtain ⟨hsame, hrest⟩ := h
  exact ⟨fun e he => hsame e fun hes => he (hsub e hes), hrest⟩

/-- Delivering a result changes no element. -/
theorem ChangesOnly.deliver {es : List Element} {s t : State} (h : ChangesOnly es s t) (r : Result) :
    ChangesOnly es s (deliver r t) := by
  obtain ⟨hsame, hrest⟩ := h
  refine ⟨fun e he => Element.same_trans (hsame e he) ?_, hrest⟩
  cases e <;> simp [Element.same]

/-! One frame per update. -/

theorem lineLow_changesOnly (s : State) : ChangesOnly [.gridQ] s (lineLow s) := by
  refine ⟨fun e he => ?_, rfl, rfl, rfl⟩
  cases e <;> simp [Element.same] at he ⊢

theorem lineHigh_changesOnly (s : State) : ChangesOnly [.gridQ] s (lineHigh s) := by
  refine ⟨fun e he => ?_, rfl, rfl, rfl⟩
  cases e <;> simp [Element.same] at he ⊢

theorem measured_changesOnly (now : Word) (s : State) : ChangesOnly [.wdg, .lastTs, .period] s (measured now s) := by
  refine ⟨fun e he => ?_, rfl, rfl, rfl⟩
  cases e <;> simp [Element.same] at he ⊢

theorem startCycle_changesOnly (p : Word) (seg : Byte) (s : State) :
    ChangesOnly [.reload, .tmrReload, .tmrPending, .chgMask, .nbMask, .work, .pos, .tmrEn, .fsm] s (startCycle p seg s) := by
  refine ⟨fun e he => ?_, rfl, rfl, rfl⟩
  cases e <;> simp [Element.same] at he ⊢

theorem sample_changesOnly (p : Position) (v : Byte) (s : State) :
    ChangesOnly [.chgMask, .nbMask, .work] s (sample p v s) := by
  refine ⟨fun e he => ?_, rfl, rfl, rfl⟩
  cases e <;> simp [Element.same] at he ⊢

theorem nextPosition_changesOnly (p : Position) (s : State) :
    ChangesOnly [.reload, .tmrReload, .tmrPending, .pos] s (nextPosition p s) := by
  refine ⟨fun e he => ?_, rfl, rfl, rfl⟩
  cases e <;> simp [Element.same] at he ⊢

theorem timerExpire_changesOnly (s : State) : ChangesOnly [.tmrPending] s (timerExpire s) := by
  refine ⟨fun e he => ?_, rfl, rfl, rfl⟩
  cases e <;> simp [Element.same] at he ⊢

theorem setFlags_changesOnly (f : Byte) (s : State) : ChangesOnly [.fHex, .fKey] s (setFlags f s) := by
  refine ⟨fun e he => ?_, rfl, rfl, rfl⟩
  cases e <;> simp [Element.same] at he ⊢

theorem advanceTail_changesOnly (s : State) : ChangesOnly [.qTail] s (advanceTail s) := by
  refine ⟨fun e he => ?_, rfl, rfl, rfl⟩
  cases e <;> simp [Element.same] at he ⊢

/-- The end of a cycle changes the sequencer and what the classification writes (rules R93, R97). -/
theorem finishCycle_changesOnly (s : State) :
    ChangesOnly [.tmrEn, .pos, .fsm, .idleCnt, .idleRun, .wr, .hist, .qBuf, .qHead, .qOverrun] s (finishCycle s) := by
  refine ⟨fun e he => ?_, by simp, by simp, by simp⟩
  cases e <;> simp [Element.same] at he ⊢

/-- The end of a cycle on an unchanged line changes the sequencer only (rule R102). -/
theorem finishCycle_unchanged_changesOnly {s : State} (hc : s.chgMask = 0) (hn : s.nbMask ≠ 0) :
    ChangesOnly [.tmrEn, .pos, .fsm] s (finishCycle s) := by
  obtain ⟨hwr, hrun, hcnt, hhead, hover, hmem⟩ := finishCycle_unchanged s hc hn
  refine ⟨fun e he => ?_, by simp, by simp, by simp⟩
  cases e <;> simp [Element.same, readSlot, readEntry, *] at he ⊢

end Sys2Proof.Machine
end

section
/-!
PROOFS. Reset (rule R146 of 70_reset_and_hazards.md).
-/

namespace Sys2Proof.Machine

/-- After a reset no slot is written (rule R146). -/
@[simp] theorem readSlot_resetBlock (s : State) (j : Nat) : readSlot (resetBlock s) j = none := rfl

/-- Every element is as in the reset state (rule R146). -/
theorem resetBlock_same_reset (e : Element) (r : Result) (s : State) :
    e.same State.reset (deliver r (resetBlock s)) := by
  cases e <;> simp [Element.same, State.reset, readSlot, readEntry]

/-- Settles O9: the update of `RST` is the reset state but for the configuration, the trace and the handed byte. -/
theorem rstPutsEveryElementAtItsResetValue : Obligations.RstPutsEveryElementAtItsResetValue := by
  unfold Obligations.RstPutsEveryElementAtItsResetValue
  refine ⟨fun _ => rfl, fun s => ⟨_, exec_of_execNext (.rst s), ?_⟩⟩
  simp [resetBlock_same_reset]

/-- Settles O10: after `RST` the indices agree, `wdg` is below every timeout of at least 1, and the four words are 0. -/
theorem afterRstTheConsumerReadsNothing : Obligations.AfterRstTheConsumerReadsNothing := by
  unfold Obligations.AfterRstTheConsumerReadsNothing
  intro s t hx
  cases execNext_of_exec hx
  refine ⟨⟨_, exec_of_execNext (.popNone _ rfl), rfl⟩, ⟨_, _, exec_of_execNext (.wrd _), rfl, fun htimeout => ?_⟩,
    fun k hk => ⟨_, exec_of_execNext (.drd k _ hk), ?_⟩⟩
  · rw [wdgExpired_eq, decide_eq_false_iff_not]
    exact not_watchdogTimeout_of_wdg_zero htimeout rfl
  · simp only [answer_out, diagWord]
    split_ifs <;> rfl

end Sys2Proof.Machine
end

section
/-!
PROOFS. The edge detector and the cycle-start service (rules R69 to R84 of 40_cycle_start.md): each outcome with its frame.
-/

namespace Sys2Proof.Machine

/-- Settles O11: `GRD0` has one update, with its frame. -/
theorem grd0ClearsTheGridLevelOnly : Obligations.Grd0ClearsTheGridLevelOnly := by
  unfold Obligations.Grd0ClearsTheGridLevelOnly
  exact ⟨fun _ => rfl, fun s => ⟨_, exec_of_execNext (.grd0 s), rfl, rfl, (lineLow_changesOnly s).deliver _⟩⟩

/-- Settles O12: without a serviced edge `GRD1` is the `unserviced` case of `ExecNext`. -/
theorem grd1WithoutAServicedEdgeSetsTheGridLevelOnly : Obligations.Grd1WithoutAServicedEdgeSetsTheGridLevelOnly := by
  unfold Obligations.Grd1WithoutAServicedEdgeSetsTheGridLevelOnly
  refine ⟨fun _ _ _ _ _ _ => rfl, fun s now seg h => ?_⟩
  exact ⟨_, exec_of_execNext (.unserviced now seg s h), rfl, rfl, (lineHigh_changesOnly s).deliver _⟩

/-- The measured period is the difference modulo `2^32` (rule R76). -/
theorem toNat_sub_lastTs (now : Word) (s : State) :
    (now - s.lastTs).toNat = (now.toNat + 2 ^ 32 - s.lastTs.toNat) % 2 ^ 32 := by
  have hlast := s.lastTs.isLt
  rw [BitVec.toNat_sub]
  omega

/-- Settles O14: the edge is the `noise` case of `ExecNext`. -/
theorem noiseEdgeIsDiscarded : Obligations.NoiseEdgeIsDiscarded := by
  unfold Obligations.NoiseEdgeIsDiscarded
  intro s now seg h
  have hframe := ((lineHigh_changesOnly s).trans (measured_changesOnly now (lineHigh s))).deliver .nothing
  exact ⟨_, exec_of_execNext (.noise now seg s h), rfl, rfl, toNat_sub_lastTs now s, rfl, rfl, hframe.mono (by decide)⟩

/-- Position 0 always takes part, and its fold onto cleared masks leaves its bit alone (rules R80, R87). -/
theorem foldMask_zero_bne (v w : Byte) : foldMask 0 0 true (v != w) = if v = w then 0 else 1 := by
  by_cases h : v = w <;> simp [h, foldMask, maskBit]

/-- Settles O15: the edge is the `accepted` case of `ExecNext`; its frame is that of its three updates together. -/
theorem acceptedEdgeStartsACycle : Obligations.AcceptedEdgeStartsACycle := by
  unfold Obligations.AcceptedEdgeStartsACycle
  intro s now seg h
  have hframe := (((lineHigh_changesOnly s).trans (measured_changesOnly now _)).trans
    (startCycle_changesOnly (now - s.lastTs) seg _)).deliver .nothing
  refine ⟨_, exec_of_execNext (.accepted now seg s h), rfl, rfl, toNat_sub_lastTs now s, BitVec.toNat_udiv,
    BitVec.toNat_add _ _, rfl, foldMask_zero_bne seg _, foldMask_zero_bne seg 0, rfl, rfl, rfl, rfl, rfl, rfl,
    hframe.mono (by decide)⟩

end Sys2Proof.Machine
end

section
/-!
PROOFS. The sampler and the timer's tick (rules R86 to R93 of 41_sampling.md).
-/

namespace Sys2Proof.Machine

/-- Which positions take part in change detection (rule R86). -/
theorem partChg_iff (s : State) (p : Position) :
    partChg s p = true ↔ p.val ≤ 11 ∨ s.fHex = true ∨ s.fKey = true := by
  simp [partChg, vkOn]

/-- Which positions take part in blank detection (rule R86). -/
theorem partNb_iff (s : State) (p : Position) :
    partNb s p = true ↔ p.val ≤ 11 ∨ s.fHex = true ∨ s.fKey = true ∨ s.cfg.vkNonblankAlways = true := by
  simp [partNb, vkOn, or_assoc]

/-- Position `q` of the working line after position `p` is stored. -/
theorem work_set_get (w : Vector Byte 14) (p q : Position) (v : Byte) :
    (w.set p.val v)[q.val] = if q = p then v else w[q.val] := by
  simp only [Vector.getElem_set, Fin.ext_iff, eq_comm]

/-- Settles O18: the fold sets the bit of a participating position only (`foldMask_getLsbD`). -/
theorem sampleFoldsTheMasksAndStores : Obligations.SampleFoldsTheMasksAndStores := by
  unfold Obligations.SampleFoldsTheMasksAndStores
  intro s p q v
  refine ⟨?_, ?_, work_set_get s.work p q v, sample_changesOnly p v s⟩
  · rw [sample_chgMask, foldMask_getLsbD, ← partChg_iff]
    simp [and_comm]
  · rw [sample_nbMask, foldMask_getLsbD, ← partNb_iff]
    simp [and_comm]

/-- Settles O19: `TEX` branches on `tmr_en` alone. -/
theorem texSetsThePendingFlag : Obligations.TexSetsThePendingFlag := by
  unfold Obligations.TexSetsThePendingFlag
  refine ⟨fun _ => rfl, fun s => ⟨fun hen => ?_, fun hoff => by simp [exec, execTex, texEnabled, hoff]⟩⟩
  exact ⟨_, exec_of_execNext (.tex s hen), rfl, rfl, (timerExpire_changesOnly s).deliver _⟩

/-- Before the last position a correction is due at 3, 7 and 11 (rules R91, R92). -/
theorem correctionDue_iff {p : Position} (h : p.val < 13) : correctionDue p = true ↔ p.val ∈ [3, 7, 11] := by
  revert p
  decide

/-- Settles O20: the service is the `tick` case of `ExecNext`. -/
theorem tickServiceTakesTheNextSample : Obligations.TickServiceTakesTheNextSample := by
  unfold Obligations.TickServiceTakesTheNextSample
  refine ⟨fun _ _ => rfl, fun s v hen hpend hpos => ?_⟩
  have hframe := ((sample_changesOnly s.pos v s).trans (nextPosition_changesOnly s.pos _)).deliver .nothing
  refine ⟨_, exec_of_execNext (.tick v s hen hpend hpos), rfl, rfl, rfl, ?_, rfl, rfl, position_succ_val hpos, rfl,
    hframe.mono (by decide)⟩
  simp only [deliver_reload, nextPosition_reload, sample_reload, sample_cfg, ← correctionDue_iff hpos]
  split_ifs
  · have hcorr := s.cfg.corrStep.isLt
    rw [BitVec.toNat_sub]
    omega
  · rfl

/-- Settles O21: the service is the `finalTick` case of `ExecNext`. -/
theorem finalTickEndsTheCycle : Obligations.FinalTickEndsTheCycle := by
  unfold Obligations.FinalTickEndsTheCycle
  intro s v hfinal
  have ⟨_, hpend, _⟩ := hfinal
  have hframe := ((sample_changesOnly 13 v s).trans (finishCycle_changesOnly _)).deliver .nothing
  exact ⟨_, exec_of_execNext (.finalTick v s hfinal), by simp, by simp [atClassify], by simp [atClassify], by simp,
    by simp, by simp, by simpa using hpend, rfl, hframe.mono (by decide)⟩

end Sys2Proof.Machine
end

section
/-!
PROOFS. Classification and publication (rules R97 to R108 of 42_classify_publish.md).
-/

namespace Sys2Proof.Machine

/-- The byte of an event, when the flag is the comparison of rule R98. -/
theorem evt_execFlag_toNat (cls : BitVec 2) (s : State) (idx : BitVec 4) :
    (evt cls (execFlag s) idx).toNat =
      cls.toNat * 64 + (if s.work[s.cfg.execPos.val] = s.cfg.execSentinel then 0x20 else 0) + idx.toNat := by
  rw [evt_toNat]
  simp only [← execFlag_iff]
  cases execFlag s <;> rfl

/-- A state that has the queue `PUSH` of a byte leaves: with room the byte stands at the head's position and the head has
moved by one; without, only the overrun counter has (rules R107, R108). -/
theorem queue_of_push {b : Byte} {s t : State} (hhead : t.qHead = (push b s).qHead)
    (hover : t.qOverrun = (push b s).qOverrun) (hread : ∀ j, readEntry t j = readEntry (push b s) j) :
    (queueCount s ≠ s.cfg.queueCap → t.qHead = s.qHead + 1 ∧ t.qOverrun = s.qOverrun ∧
      readEntry t (queuePos s.cfg s.qHead) = some b ∧
      ∀ j, j ≠ queuePos s.cfg s.qHead → readEntry t j = readEntry s j) ∧
    (queueCount s = s.cfg.queueCap → t.qHead = s.qHead ∧ t.qOverrun.toNat = min (s.qOverrun.toNat + 1) 0xFFFF ∧
      ∀ j, readEntry t j = readEntry s j) := by
  refine ⟨fun hroom => ?_, fun hfull => ?_⟩
  · obtain ⟨h1, h2, h3⟩ := push_room_reads b s hroom
    exact ⟨hhead.trans h1, hover.trans h2, by rw [hread, h3, if_pos rfl], fun j hj => by rw [hread, h3, if_neg hj]⟩
  · obtain ⟨h1, h2, h3⟩ := push_full_reads b s hfull
    exact ⟨hhead.trans h1, (congrArg BitVec.toNat (hover.trans h2)).trans (satInc_toNat _),
      fun j => (hread j).trans (h3 j)⟩

/-- Settles O22: the end of the cycle is that of a NORMAL line (`finishCycle_normal`), its queue that of a `PUSH`. -/
theorem normalLineIsPublished : Obligations.NormalLineIsPublished := by
  unfold Obligations.NormalLineIsPublished
  intro s v hfinal hc hn
  obtain ⟨hwr, hcnt, hrun, hslot, hhead, hover, hread⟩ := finishCycle_normal (atClassify v s) hc hn
  obtain ⟨hroom, hfull⟩ := queue_of_push hhead hover hread
  refine ⟨_, publishedLine (atClassify v s), exec_of_execNext (.finalTick v s hfinal), ?_, rfl, fun k => ?_,
    fun j hj => ?_, ?_, hcnt, hrun, fun h => ?_, hfull⟩
  · exact (hslot _).trans (if_pos rfl)
  · exact (work_set_get _ _ _ _).trans (ite_congr rfl (fun hk => by rw [hk]; rfl) (fun _ => rfl))
  · exact (hslot j).trans (if_neg hj)
  · exact (congrArg BitVec.toNat hwr).trans (nextSlot_toNat s.cfg s.wr)
  · obtain ⟨h1, h2, h3, h4⟩ := hroom h
    exact ⟨h1, h2, ⟨_, h3, evt_execFlag_toNat clsNormal (atClassify v s) s.wr⟩, h4⟩

/-- Settles O23: the end of the cycle is that of a blank line (`finishCycle_blank`); the first of a run pushes. -/
theorem blankLineIsReportedOnceAndCounted : Obligations.BlankLineIsReportedOnceAndCounted := by
  unfold Obligations.BlankLineIsReportedOnceAndCounted
  intro s v hfinal hn
  obtain ⟨hwr, hrun, hcnt, hslot, hlater, hfirst⟩ := finishCycle_blank (atClassify v s) hn
  have hcnt : (finishCycle (atClassify v s)).idleCnt = if s.idleRun then s.idleCnt + 1 else s.idleCnt := hcnt
  refine ⟨_, exec_of_execNext (.finalTick v s hfinal), hrun, hwr, hslot, fun h => ?_, fun h => ?_⟩
  · refine ⟨?_, hlater h⟩
    rw [h, if_pos rfl] at hcnt
    exact (congrArg BitVec.toNat hcnt).trans (BitVec.toNat_add _ _)
  · obtain ⟨hhead, hover, hread⟩ := hfirst h
    obtain ⟨hroom, hfull⟩ := queue_of_push hhead hover hread
    rw [h] at hcnt
    refine ⟨hcnt, fun h => ?_, hfull⟩
    obtain ⟨h1, h2, h3, h4⟩ := hroom h
    exact ⟨h1, h2, ⟨_, h3, evt_execFlag_toNat clsIdle (atClassify v s) 0⟩, h4⟩

/-- Settles O24: the end of the cycle is that of an unchanged line. -/
theorem unchangedLineQueuesNothing : Obligations.UnchangedLineQueuesNothing := by
  unfold Obligations.UnchangedLineQueuesNothing
  intro s v hfinal hc hn
  have hframe := ((sample_changesOnly 13 v s).trans (finishCycle_unchanged_changesOnly hc hn)).deliver .nothing
  exact ⟨_, exec_of_execNext (.finalTick v s hfinal), hframe.mono (by decide)⟩

end Sys2Proof.Machine
end

section
/-!
PROOFS. The consumer's reads, the watchdog's tick, the diagnostic words and the flags (rules R60, R109, R110 of
30_encoding.md and 43_queue_consumer.md, rules R117, R120, R121 of 44_watchdog_diag.md).
-/

namespace Sys2Proof.Machine

/-- Settles O27: a byte of the two classes is not reserved (`eventReserved_iff`). -/
theorem popDeliversTheOldestEvent : Obligations.PopDeliversTheOldestEvent := by
  unfold Obligations.PopDeliversTheOldestEvent
  refine ⟨fun _ => rfl, fun s hempty => ⟨_, exec_of_execNext (.popNone s hempty), rfl, answer_changesOnly _ s⟩,
    fun s b hne hread hclass => ?_⟩
  rw [← queuePos_eq_mod] at hread
  have hb : b = readEvent s (queuePos s.cfg s.qTail) := by simp [readEvent, hread]
  have hr : eventReserved b = false := by
    rw [Bool.eq_false_iff, ne_eq, eventReserved_iff]
    omega
  exact ⟨_, exec_of_execNext (.popSome s hne b hb hr), rfl, BitVec.toNat_add _ _, (advanceTail_changesOnly s).deliver _⟩

/-- Settles O28: `POP` and the consumer's decoder both stop on a reserved class (rule R60). -/
theorem reservedEventClassIsAFault : Obligations.ReservedEventClassIsAFault := by
  unfold Obligations.ReservedEventClassIsAFault
  refine fun s b hclass => ⟨fun hne hread => ?_, fun hh => ?_⟩
  · rw [← queuePos_eq_mod] at hread
    have hr : eventReserved b = true := (eventReserved_iff b).mpr hclass
    simp [exec, execPop, queueEmpty, hne, readEvent, hread, hr]
  · have hnormal : eventClass b ≠ clsNormal := by rw [ne_eq, eventClass_eq_normal]; omega
    have hidle : eventClass b ≠ clsIdle := by rw [ne_eq, eventClass_eq_idle]; omega
    simp [step, fetch, hh, decodeEvent, hnormal, hidle, rejected]

/-- Field `k` of a line up to 13 is the segment byte, zero-extended (rule R110). -/
theorem lineField_of_lt {line : ScanLine} {k : Byte} (h : k.toNat < 14) :
    lineField line k = (line.seg[k.toNat]).setWidth 16 := by
  simp [lineField, h]

/-- A zero-extended byte keeps its value. -/
theorem toNat_setWidth_byte (b : Byte) : (b.setWidth 16).toNat = b.toNat := by
  have hb := b.isLt
  rw [BitVec.toNat_setWidth]
  omega

/-- A field up to 13 is a byte's value, written or not (rules R39, R110). -/
theorem readField_lt {s : State} {i : Nat} {k : Byte} (h : k.toNat < 14) : (readField s i k).toNat < 256 := by
  unfold readField
  split
  · rw [lineField_of_lt h, toNat_setWidth_byte]
    exact BitVec.isLt _
  · rw [unwrittenField, if_pos h, toNat_setWidth_byte]
    exact BitVec.isLt _

/-- Settles O31: `SRD` answers `readField` of the reduced index, which is the line's field where a line is written. -/
theorem srdReadsOneFieldOfASlot : Obligations.SrdReadsOneFieldOfASlot := by
  unfold Obligations.SrdReadsOneFieldOfASlot
  refine ⟨fun _ _ _ => rfl, fun s idx k => ⟨fun hk => ?_, fun hk => ?_⟩⟩
  · refine ⟨_, _, exec_of_execNext (.srd idx k s hk), rfl, answer_changesOnly _ s, fun h => readField_lt (by omega),
      fun line hline => ⟨fun h => ?_, fun h => ?_⟩⟩
    · simp only [readField, slotOfIdx, hline]
      rw [lineField_of_lt h, toNat_setWidth_byte]
    · simp [readField, slotOfIdx, hline, lineField, h]
  · have hoff : srdEnabled k = false := by simpa [srdEnabled] using hk
    simp [exec, execSrd, hoff]

/-- Settles O32: the reads answer without touching what they read. -/
theorem readsAreIdempotent : Obligations.ReadsAreIdempotent := by
  unfold Obligations.ReadsAreIdempotent
  refine ⟨fun i s t hi hx => ?_, fun s t hx => ?_⟩
  · obtain rfl | ⟨idx, k, rfl⟩ | ⟨k, rfl⟩ := hi
    · cases execNext_of_exec hx
      exact ⟨answer_changesOnly _ s, rfl⟩
    · cases execNext_of_exec hx with
      | srd _ _ _ hk => exact ⟨answer_changesOnly _ s, exec_of_execNext (.srd idx k (answer _ s) hk)⟩
    · cases execNext_of_exec hx with
      | drd _ _ hk => exact ⟨answer_changesOnly _ s, exec_of_execNext (.drd k (answer _ s) hk)⟩
  · cases execNext_of_exec hx with
    | popNone => exact (answer_changesOnly _ s).mono (by simp)
    | popSome => exact (advanceTail_changesOnly s).deliver _

/-- Settles O34: the increment saturates (`satInc_toNat`), and `wdg` is the frame. -/
theorem mstCountsUpAndSaturates : Obligations.MstCountsUpAndSaturates := by
  unfold Obligations.MstCountsUpAndSaturates
  refine ⟨fun _ => rfl, fun s => ?_⟩
  exact ⟨_, exec_of_execNext (.mst s), satInc_toNat s.wdg, rfl, tickWatchdog_changesOnly _ s⟩

/-- `DRD`'s four words (rule R120). -/
theorem diagWord_spec (s : State) {k : Byte} (hk : k.toNat ≤ 3) :
    (k.toNat = 0 → diagWord s k = s.lastTs) ∧ (k.toNat = 1 → diagWord s k = s.period) ∧
    (k.toNat = 2 → diagWord s k = s.reload) ∧ (k.toNat = 3 → (diagWord s k).toNat = s.qOverrun.toNat) := by
  have hover := s.qOverrun.isLt
  have hcases : k = 0 ∨ k = 1 ∨ k = 2 ∨ k = 3 := by
    simp only [← BitVec.toNat_inj]
    have h0 : (0 : Byte).toNat = 0 := rfl
    have h1 : (1 : Byte).toNat = 1 := rfl
    have h2 : (2 : Byte).toNat = 2 := rfl
    have h3 : (3 : Byte).toNat = 3 := rfl
    omega
  obtain rfl | rfl | rfl | rfl := hcases <;> simp [diagWord]
  omega

/-- Settles O37: `DRD` answers `diagWord`, by its four words. -/
theorem drdReadsOneWord : Obligations.DrdReadsOneWord := by
  unfold Obligations.DrdReadsOneWord
  refine ⟨fun _ _ => rfl, fun s k => ⟨fun hk => ?_, fun hk => ?_⟩⟩
  · exact ⟨_, _, exec_of_execNext (.drd k s hk), rfl, answer_changesOnly _ s, diagWord_spec s hk⟩
  · have hoff : drdEnabled k = false := by simpa [drdEnabled] using hk
    simp [exec, execDrd, hoff]

/-- Bit `n` of a byte as a number. -/
theorem getLsbD_iff_div_mod (b : Byte) (n : Nat) : b.getLsbD n = true ↔ b.toNat / 2 ^ n % 2 = 1 := by
  rw [BitVec.getLsbD, Nat.testBit_eq_decide_div_mod_eq, decide_eq_true_iff]

/-- Settles O38: bits 0 and 1 of the operand as numbers (`getLsbD_iff_div_mod`). -/
theorem flgSetsTheTwoFlags : Obligations.FlgSetsTheTwoFlags := by
  unfold Obligations.FlgSetsTheTwoFlags
  refine ⟨fun _ _ => rfl, fun s f => ?_⟩
  refine ⟨_, exec_of_execNext (.flg f s), ?_, ?_, rfl, (setFlags_changesOnly f s).deliver _⟩
  · simpa [flagHex] using getLsbD_iff_div_mod f 0
  · simpa [flagKey] using getLsbD_iff_div_mod f 1

/-- Settles O39: the class is the upper two bits as a number, the slot and the flag are bits 3:0 and bit 5. -/
theorem consumerDecodesTheEventByte : Obligations.ConsumerDecodesTheEventByte := by
  unfold Obligations.ConsumerDecodesTheEventByte
  refine fun s b => ⟨fun hclass => ?_, fun hclass => ?_⟩
  · have hdec : decodeEvent b = .ok (.evNormal (b.getLsbD 5) (b.extractLsb' 0 4)) := by
      rw [decodeEvent, if_pos ((eventClass_eq_normal b).mpr hclass)]
    exact ⟨_, _, hdec, exec_of_execNext (.evNormal _ _ s), answer_changesOnly _ s, _, _, rfl, rfl,
      by simp [BitVec.extractLsb'_toNat], getLsbD_iff_div_mod b 5⟩
  · have hnormal : eventClass b ≠ clsNormal := by rw [ne_eq, eventClass_eq_normal]; omega
    have hdec : decodeEvent b = .ok (.evIdle (b.getLsbD 5)) := by
      rw [decodeEvent, if_neg hnormal, if_pos ((eventClass_eq_idle b).mpr hclass)]
    exact ⟨_, _, hdec, exec_of_execNext (.evIdle _ s), answer_changesOnly _ s, _, rfl, rfl, getLsbD_iff_div_mod b 5⟩

/-- Settles O40: both rows answer without a condition. -/
theorem eventRowsDeliverTheDecodedEvent : Obligations.EventRowsDeliverTheDecodedEvent := by
  unfold Obligations.EventRowsDeliverTheDecodedEvent
  exact fun s executing idx => ⟨⟨_, exec_of_execNext (.evNormal executing idx s), rfl, answer_changesOnly _ s⟩,
    ⟨_, exec_of_execNext (.evIdle executing s), rfl, answer_changesOnly _ s⟩⟩

end Sys2Proof.Machine
end

section
/-!
PROOFS. Rules over all operations: who moves the watchdog, the sequencer, the pending tick and the history (rules R18, R30,
R49, R74, R117), the tie-break of rule R132 and the sample instants of rule R160.
-/

namespace Sys2Proof.Machine

/-- Settles O36: a serviced edge and `RST` zero `wdg`, `MST` never lowers it, and every other operation leaves it. -/
theorem onlyTicksRaiseTheWatchdogAndOnlyEdgesZeroIt : Obligations.OnlyTicksRaiseTheWatchdogAndOnlyEdgesZeroIt := by
  unfold Obligations.OnlyTicksRaiseTheWatchdogAndOnlyEdgesZeroIt
  intro i s t hx
  cases execNext_of_exec hx
  case rst => exact ⟨fun h => by simp at h, fun _ => ⟨rfl, .inl rfl⟩⟩
  case first now seg he _ => exact ⟨fun h => by simp at h, fun _ => ⟨rfl, .inr ⟨now, seg, rfl, he⟩⟩⟩
  case noise now seg hnoise =>
    obtain ⟨he, -⟩ := hnoise
    exact ⟨fun h => by simp at h, fun _ => ⟨rfl, .inr ⟨now, seg, rfl, he⟩⟩⟩
  case accepted now seg hacc =>
    obtain ⟨he, -⟩ := hacc
    exact ⟨fun h => by simp at h, fun _ => ⟨rfl, .inr ⟨now, seg, rfl, he⟩⟩⟩
  case mst =>
    refine ⟨fun _ => rfl, fun h => ?_⟩
    have hwdg := s.wdg.isLt
    simp only [deliver_wdg, tickWatchdog_wdg, satInc_toNat] at h
    omega
  all_goals simp

/-- Settles O43: outside a cycle only a serviced edge moves `fsm`, within one only the final `TTK`. -/
theorem sequencerMovesOnlyAlongTheListedTransitions : Obligations.SequencerMovesOnlyAlongTheListedTransitions := by
  unfold Obligations.SequencerMovesOnlyAlongTheListedTransitions
  intro i s t hseq hx hmoved
  cases execNext_of_exec hx
  case rst => exact .inr (.inr (.inr ⟨rfl, rfl⟩))
  case first now seg he hts => exact .inl ⟨hseq.idleBeforeFirstEdge hts, rfl, hts, now, seg, rfl, he⟩
  case accepted now seg hacc =>
    have ⟨⟨_, hunmasked⟩, _⟩ := hacc
    exact .inr (.inl ⟨hunmasked, rfl, now, seg, rfl, hacc⟩)
  case finalTick v hfinal =>
    have ⟨hen, _⟩ := hfinal
    obtain ⟨hfsm, -⟩ := hseq.of_tmrEn hen
    exact .inr (.inr (.inl ⟨hfsm, by simp, v, rfl, hfinal⟩))
  all_goals simp at hmoved

/-- Settles O44: the final `TTK` leaves the flag, `TEX` sets it, and the operations that clear it are the three listed. -/
theorem onlySetPeriodClearsAPendingTick : Obligations.OnlySetPeriodClearsAPendingTick := by
  unfold Obligations.OnlySetPeriodClearsAPendingTick
  intro i s t hx hpend hcleared
  cases execNext_of_exec hx
  case rst => exact .inl rfl
  case accepted now seg hacc => exact .inr (.inl ⟨now, seg, rfl, hacc⟩)
  case tick v hen _ hpos => exact .inr (.inr ⟨v, rfl, hen, hpos⟩)
  all_goals simp [hpend] at hcleared

/-- A slot that the end of a cycle changes is the one at the cursor, on a NORMAL line (rule R100). -/
theorem readSlot_finishCycle_ne {s : State} {j : Nat} (h : readSlot (finishCycle s) j ≠ readSlot s j) :
    j = s.wr.toNat ∧ (finishCycle s).wr = nextSlot s.cfg s.wr ∧ s.chgMask ≠ 0 ∧ s.nbMask ≠ 0 := by
  have hn : s.nbMask ≠ 0 := fun hn => by
    obtain ⟨-, -, -, hslot, -⟩ := finishCycle_blank s hn
    exact h (hslot j)
  have hc : s.chgMask ≠ 0 := fun hc => by
    obtain ⟨-, -, -, -, -, hmem⟩ := finishCycle_unchanged s hc hn
    exact h (by simp only [readSlot, hmem])
  obtain ⟨hwr, -, -, hslot, -⟩ := finishCycle_normal s hc hn
  refine ⟨by_contra fun hj => h ?_, hwr, hc, hn⟩
  rw [hslot, if_neg hj]

/-- A saturating increment does not decrease (rule R13(e)). -/
theorem toNat_le_satInc {w : Nat} (v : BitVec w) : v.toNat ≤ (satInc v).toNat := by
  have hv := v.isLt
  rw [satInc_toNat]
  omega

/-- `PUSH` never lowers the overrun counter (rule R108). -/
theorem qOverrun_le_push (b : Byte) (s : State) : s.qOverrun.toNat ≤ (push b s).qOverrun.toNat := by
  by_cases hfull : queueCount s = s.cfg.queueCap
  · obtain ⟨-, hover, -⟩ := push_full_reads b s hfull
    exact hover ▸ toNat_le_satInc s.qOverrun
  · obtain ⟨-, hover, -⟩ := push_room_reads b s hfull
    rw [hover]

theorem qOverrun_le_finishCycle (s : State) : s.qOverrun.toNat ≤ (finishCycle s).qOverrun.toNat := by
  rcases finishCycle_queue s with ⟨-, hover, -⟩ | ⟨b, -, -, hover, -⟩
  · rw [hover]
  · exact hover ▸ qOverrun_le_push b s

/-- Settles O45: the final `TTK` alone writes history or the overrun counter (`readSlot_finishCycle_ne`). -/
theorem onlyNormalLinesWriteHistory : Obligations.OnlyNormalLinesWriteHistory := by
  unfold Obligations.OnlyNormalLinesWriteHistory
  intro i s t hx hrst
  cases execNext_of_exec hx
  case rst => exact absurd rfl hrst
  case finalTick v hfinal =>
    refine ⟨fun j hj => ?_, qOverrun_le_finishCycle (sample 13 v s)⟩
    obtain ⟨hslot, hwr, hc, hn⟩ := readSlot_finishCycle_ne (s := sample 13 v s) (by simpa using hj)
    have hnext := (congrArg BitVec.toNat hwr).trans (nextSlot_toNat _ _)
    exact ⟨hslot, ⟨v, rfl, hfinal⟩, hnext, by simpa using hc, by simpa using hn⟩
  all_goals simp

/-- Settles O57: the tick runs first, and the edge, still serviced, zeroes `wdg` (O16). -/
theorem servicedEdgeWinsOverATickOnTheSameClock : Obligations.ServicedEdgeWinsOverATickOnTheSameClock := by
  unfold Obligations.ServicedEdgeWinsOverATickOnTheSameClock
  intro s now seg he
  obtain ⟨t, ht, hzero, -⟩ := everyServicedEdgeZeroesTheWatchdog (deliver .nothing (tickWatchdog s)) now seg
  exact ⟨t, by simp [sameClock, runOps, exec_of_execNext (.mst s), ht], hzero he⟩

/-- Settles O58: at each position both tables are linear in the reload and the two parameters. -/
theorem sampleInstantsAreTheSumsOfTheWaits : Obligations.SampleInstantsAreTheSumsOfTheWaits := by
  unfold Obligations.SampleInstantsAreTheSumsOfTheWaits
  intro c r n hn
  interval_cases n <;> simp [sampleOffset, waitAfter] <;> ring

end Sys2Proof.Machine
end

section
/-!
PROOFS. The access table (rule R135 of 60_exceptions.md). Writes follow from the frames; that unreadable elements do not
matter follows from an element-wise congruence of each update: an element afterwards depends on itself and on elements that
the operation's contexts may read.
-/

namespace Sys2Proof.Machine

/-- An element outside the frame and outside the rights of every context stays. -/
theorem ChangesOnly.same_of_not_mayWrite {es : List Element} {s t : State} {as : List Agent} {e : Element}
    (h : ChangesOnly es s t) (hframe : ∀ e ∈ es, ∃ a ∈ as, mayWrite a e = true)
    (he : ∀ a ∈ as, mayWrite a e = false) : e.same s t := by
  obtain ⟨hsame, -⟩ := h
  refine hsame e fun hmem => ?_
  obtain ⟨a, ha, hw⟩ := hframe e hmem
  simp [he a ha] at hw

/-- No operation but `RST`, which stands outside the table, writes an element its contexts may not write. -/
theorem exec_respects_mayWrite {i : Instr} {s t : State} {e : Element} (hx : exec i s = .next t)
    (he : ∀ a ∈ i.agents, mayWrite a e = false) : e.same s t := by
  have hedge := lineHigh_changesOnly s
  cases execNext_of_exec hx
  case rst => simp [Instr.agents, mayWrite] at he
  case grd0 => exact ((lineLow_changesOnly s).deliver _).same_of_not_mayWrite (by simp [Instr.agents, mayWrite]) he
  case unserviced => exact (hedge.deliver _).same_of_not_mayWrite (by simp [Instr.agents, mayWrite]) he
  case first => exact (firstEdge_changesOnly _ _ s).same_of_not_mayWrite (by simp [Instr.agents, mayWrite]) he
  case noise now _ _ =>
    exact ((hedge.trans (measured_changesOnly now _)).deliver _).same_of_not_mayWrite (by simp [Instr.agents, mayWrite]) he
  case accepted now seg _ =>
    exact (((hedge.trans (measured_changesOnly now _)).trans (startCycle_changesOnly _ seg _)).deliver
      _).same_of_not_mayWrite (by simp [Instr.agents, mayWrite]) he
  case tex => exact ((timerExpire_changesOnly s).deliver _).same_of_not_mayWrite (by simp [Instr.agents, mayWrite]) he
  case finalTick v _ =>
    exact (((sample_changesOnly 13 v s).trans (finishCycle_changesOnly _)).deliver _).same_of_not_mayWrite
      (by simp [Instr.agents, mayWrite]) he
  case tick v _ _ _ =>
    exact (((sample_changesOnly s.pos v s).trans (nextPosition_changesOnly s.pos _)).deliver _).same_of_not_mayWrite
      (by simp [Instr.agents, mayWrite]) he
  case mst => exact (tickWatchdog_changesOnly _ s).same_of_not_mayWrite (by simp [Instr.agents, mayWrite]) he
  case popSome => exact ((advanceTail_changesOnly s).deliver _).same_of_not_mayWrite (by simp [Instr.agents, mayWrite]) he
  case flg f => exact ((setFlags_changesOnly f s).deliver _).same_of_not_mayWrite (by simp [Instr.agents, mayWrite]) he
  all_goals exact (answer_changesOnly _ s).same_of_not_mayWrite (by simp) he

/-- Two states agree in what the contexts of an operation may read, in the configuration and in the free values. -/
structure ReadsAgree (i : Instr) (s s' : State) : Prop where
  elements : ∀ e, i.agents.any (mayRead · e) = true → e.same s s'
  cfg : s'.cfg = s.cfg
  draw : s'.draw = s.draw

/-- States that differ only in an element no context may read agree in what they may read. -/
theorem readsAgree_of_differOnlyIn {i : Instr} {s s' : State} {e : Element} (hr : ∀ a ∈ i.agents, mayRead a e = false)
    (hd : DifferOnlyIn e s s') : ReadsAgree i s s' := by
  obtain ⟨hsame, hcfg, -, -, -, hdraw⟩ := hd
  refine ⟨fun r hread => hsame r ?_, hcfg, hdraw⟩
  rintro rfl
  obtain ⟨a, ha, hmay⟩ := List.any_eq_true.mp hread
  simp [hr a ha] at hmay

/-! Each update, element by element. -/

theorem same_answer {s s' : State} {e : Element} (r r' : Result) (h : e.same s s') : e.same (answer r s) (answer r' s') := by
  cases e <;> simpa [Element.same] using h

theorem same_deliver {s s' : State} {e : Element} (r r' : Result) (h : e.same s s') :
    e.same (deliver r s) (deliver r' s') := by
  cases e <;> simpa [Element.same] using h

theorem same_lineLow {s s' : State} {e : Element} (h : e.same s s') : e.same (lineLow s) (lineLow s') := by
  cases e <;> simp_all [Element.same]

theorem same_lineHigh {s s' : State} {e : Element} (h : e.same s s') : e.same (lineHigh s) (lineHigh s') := by
  cases e <;> simp_all [Element.same]

theorem same_firstEdge {s s' : State} {e : Element} (now : Word) (h : e.same s s') :
    e.same (firstEdge now s) (firstEdge now s') := by
  cases e <;> simp_all [Element.same]

theorem same_measured {s s' : State} {e : Element} (now : Word) (hlast : s'.lastTs = s.lastTs) (h : e.same s s') :
    e.same (measured now s) (measured now s') := by
  cases e <;> simp_all [Element.same]

theorem same_startCycle {s s' : State} {e : Element} (p : Word) (seg : Byte) (hwork : s'.work = s.work)
    (hcfg : s'.cfg = s.cfg) (h : e.same s s') : e.same (startCycle p seg s) (startCycle p seg s') := by
  cases e <;> simp_all [Element.same]

theorem same_timerExpire {s s' : State} {e : Element} (h : e.same s s') : e.same (timerExpire s) (timerExpire s') := by
  cases e <;> simp_all [Element.same]

theorem same_tickWatchdog {s s' : State} {e : Element} (h : e.same s s') : e.same (tickWatchdog s) (tickWatchdog s') := by
  cases e <;> simp_all [Element.same]

theorem same_advanceTail {s s' : State} {e : Element} (h : e.same s s') : e.same (advanceTail s) (advanceTail s') := by
  cases e <;> simp_all [Element.same]

theorem same_setFlags {s s' : State} {e : Element} (f : Byte) (h : e.same s s') : e.same (setFlags f s) (setFlags f s') := by
  cases e <;> simp_all [Element.same]

theorem same_sample {s s' : State} {e : Element} (p : Position) (v : Byte) (hwork : s'.work = s.work)
    (hhex : s'.fHex = s.fHex) (hkey : s'.fKey = s.fKey) (hcfg : s'.cfg = s.cfg) (h : e.same s s') :
    e.same (sample p v s) (sample p v s') := by
  cases e <;> simp_all [Element.same, partChg, partNb, vkOn]

theorem same_nextPosition {s s' : State} {e : Element} (p : Position) (hreload : s'.reload = s.reload)
    (hcfg : s'.cfg = s.cfg) (h : e.same s s') : e.same (nextPosition p s) (nextPosition p s') := by
  cases e <;> simp_all [Element.same]

theorem same_push {s s' : State} {e : Element} (b : Byte) (hhead : s'.qHead = s.qHead) (htail : s'.qTail = s.qTail)
    (hcfg : s'.cfg = s.cfg) (h : e.same s s') : e.same (push b s) (push b s') := by
  have hfull : queueFull s' = queueFull s := by simp [queueFull, queueCount_congr hhead htail, hcfg]
  rcases push_cases b s with ⟨hf, hp⟩ | ⟨hf, hp⟩
  · rw [hp, push_of_full b s' (hfull.trans hf)]
    cases e <;> simp_all [Element.same]
  · rw [hp, push_of_room b s' (hfull.trans hf)]
    cases e <;> simp_all [Element.same]

theorem same_writeSlot {s s' : State} {e : Element} (i : Nat) (line : ScanLine) (h : e.same s s') :
    e.same (writeSlot i line s) (writeSlot i line s') := by
  cases e <;> simp_all [Element.same]

theorem same_samplingOver {s s' : State} {e : Element} (h : e.same s s') : e.same (samplingOver s) (samplingOver s') := by
  cases e <;> simp_all [Element.same]

/-- What the classification reads (rules R97 to R105). -/
structure ClassifiedAlike (s s' : State) : Prop where
  work : s'.work = s.work
  idleCnt : s'.idleCnt = s.idleCnt
  idleRun : s'.idleRun = s.idleRun
  chgMask : s'.chgMask = s.chgMask
  nbMask : s'.nbMask = s.nbMask
  wr : s'.wr = s.wr
  qHead : s'.qHead = s.qHead
  qTail : s'.qTail = s.qTail
  cfg : s'.cfg = s.cfg

/-- The published line is a function of what the classification reads (rules R103, R104). -/
theorem ClassifiedAlike.publishedLine_eq {s s' : State} (h : ClassifiedAlike s s') :
    publishedLine s' = publishedLine s := by
  simp [publishedLine, h.work, h.idleCnt, h.cfg]

/-- So is the execution flag (rule R98). -/
theorem ClassifiedAlike.execFlag_eq {s s' : State} (h : ClassifiedAlike s s') : execFlag s' = execFlag s := by
  simp [execFlag, h.work, h.cfg]

theorem same_publishNormal {s s' : State} {e : Element} (ha : ClassifiedAlike s s') (h : e.same s s') :
    e.same (publishNormal s) (publishNormal s') := by
  have hpushed := same_push (s := writeSlot s.wr.toNat (publishedLine s) s)
    (s' := writeSlot s.wr.toNat (publishedLine s) s') (evt clsNormal (execFlag s) s.wr) ha.qHead ha.qTail ha.cfg
    (same_writeSlot _ _ h)
  have hpublished : publishNormal s' =
      { push (evt clsNormal (execFlag s) s.wr) (writeSlot s.wr.toNat (publishedLine s) s') with
        wr := nextSlot s.cfg s.wr, idleCnt := 0, idleRun := false } := by
    simp only [publishNormal, ha.execFlag_eq, ha.publishedLine_eq, ha.wr, ha.cfg]
  rw [hpublished]
  cases e
  case wr | idleCnt | idleRun => simp [Element.same]
  all_goals exact hpushed

theorem same_noteBlank {s s' : State} {e : Element} (ha : ClassifiedAlike s s') (h : e.same s s') :
    e.same (noteBlank s) (noteBlank s') := by
  have hpushed := same_push (evt clsIdle (execFlag s) 0) ha.qHead ha.qTail ha.cfg h
  unfold noteBlank
  rw [ha.idleRun, ha.execFlag_eq]
  split
  · cases e
    case idleCnt => simp [Element.same, ha.idleCnt]
    case idleRun => rfl
    all_goals exact h
  · cases e
    case idleRun => simp [Element.same]
    all_goals exact hpushed

theorem same_classify {s s' : State} {e : Element} (ha : ClassifiedAlike s s') (h : e.same s s') :
    e.same (classify s) (classify s') := by
  have hchg : chgAny s' = chgAny s := by simp [chgAny, ha.chgMask]
  have hnb : nbAny s' = nbAny s := by simp [nbAny, ha.nbMask]
  unfold classify
  rw [hchg, hnb]
  split
  · exact same_publishNormal ha h
  · split
    · exact same_noteBlank ha h
    · exact h

theorem same_finishCycle {s s' : State} {e : Element} (ha : ClassifiedAlike s s') (h : e.same s s') :
    e.same (finishCycle s) (finishCycle s') := by
  have hover : ClassifiedAlike (samplingOver s) (samplingOver s') :=
    ⟨ha.work, ha.idleCnt, ha.idleRun, ha.chgMask, ha.nbMask, ha.wr, ha.qHead, ha.qTail, ha.cfg⟩
  have hclassified := same_classify hover (same_samplingOver h)
  cases e
  case fsm => simp [Element.same]
  all_goals exact hclassified

/-- What the producer reads decides the sample alike, and what it needs for the classification after it. -/
theorem ReadsAgree.sampledAlike {s s' : State} {v : Byte} (h : ReadsAgree (.ttk v) s s') (p : Position) :
    (∀ e : Element, e.same s s' → e.same (sample p v s) (sample p v s')) ∧
    ClassifiedAlike (sample p v s) (sample p v s') := by
  have hsampled : ∀ e : Element, e.same s s' → e.same (sample p v s) (sample p v s') := fun e =>
    same_sample p v (h.elements .work rfl) (h.elements .fHex rfl) (h.elements .fKey rfl) h.cfg
  exact ⟨hsampled, hsampled .work (h.elements .work rfl), h.elements .idleCnt rfl, h.elements .idleRun rfl,
    hsampled .chgMask (h.elements .chgMask rfl), hsampled .nbMask (h.elements .nbMask rfl), h.elements .wr rfl,
    h.elements .qHead rfl, h.elements .qTail rfl, h.cfg⟩

/-- The consumer's reads of the two arrays are the same in states that agree in them. -/
theorem ReadsAgree.readEvent_eq {s s' : State} (h : ReadsAgree .pop s s') :
    readEvent s' (queuePos s'.cfg s'.qTail) = readEvent s (queuePos s.cfg s.qTail) := by
  have htail : s'.qTail = s.qTail := h.elements .qTail rfl
  have hbuf : ∀ j, readEntry s' j = readEntry s j := h.elements .qBuf rfl
  simp only [readEvent, htail, hbuf, h.cfg, h.draw]

theorem ReadsAgree.readField_eq {s s' : State} {idx k : Byte} (h : ReadsAgree (.srd idx k) s s') :
    readField s' (slotOfIdx s'.cfg idx) k = readField s (slotOfIdx s.cfg idx) k := by
  have hhist : ∀ j, readSlot s' j = readSlot s j := h.elements .hist rfl
  simp only [readField, hhist, h.cfg, h.draw]

theorem ReadsAgree.diagWord_eq {s s' : State} {k : Byte} (h : ReadsAgree (.drd k) s s') :
    diagWord s' k = diagWord s k := by
  have hlast : s'.lastTs = s.lastTs := h.elements .lastTs rfl
  have hperiod : s'.period = s.period := h.elements .period rfl
  have hreload : s'.reload = s.reload := h.elements .reload rfl
  have hover : s'.qOverrun = s.qOverrun := h.elements .qOverrun rfl
  simp only [diagWord, hlast, hperiod, hreload, hover]

/-- Two next states that agree in every element in which the states before agreed, with the same result. -/
def ElementwiseAlike (s s' t t' : State) : Prop := (∀ e : Element, e.same s s' → e.same t t') ∧ t'.out = t.out

/-- The edge detector's branch is decided by what CALC and PRODUCER may read (rules R70 to R77). -/
theorem ReadsAgree.edge {now : Word} {seg : Byte} {s s' : State} (h : ReadsAgree (.grd1 now seg) s s') :
    (edgeServiced s' ↔ edgeServiced s) ∧ (noiseEdge now s' ↔ noiseEdge now s) ∧
    (edgeAccepted now s' ↔ edgeAccepted now s) := by
  have hgrid : s'.gridQ = s.gridQ := h.elements .gridQ rfl
  have hfsm : s'.fsm = s.fsm := h.elements .fsm rfl
  have hts : s'.tsValid = s.tsValid := h.elements .tsValid rfl
  have hlast : s'.lastTs = s.lastTs := h.elements .lastTs rfl
  simp only [edgeServiced, noiseEdge, edgeAccepted, measuredPeriod, hgrid, hfsm, hts, hlast, h.cfg, and_self]

/-- An operation that completes completes alike from a state that agrees in what it may read. -/
theorem execNext_alike {i : Instr} {s s' t : State} (h : ReadsAgree i s s') (hx : ExecNext i s t) :
    ∃ t', exec i s' = .next t' ∧ ElementwiseAlike s s' t t' := by
  cases hx
  case rst =>
    refine ⟨_, exec_of_execNext (.rst s'), fun e _ => ?_, rfl⟩
    exact Element.same_trans (Element.same_symm (resetBlock_same_reset e _ s)) (resetBlock_same_reset e _ s')
  case grd0 => exact ⟨_, exec_of_execNext (.grd0 s'), fun e he => same_deliver _ _ (same_lineLow he), rfl⟩
  case unserviced now seg hun =>
    have hgrid : s'.gridQ = s.gridQ := h.elements .gridQ rfl
    have hfsm : s'.fsm = s.fsm := h.elements .fsm rfl
    exact ⟨_, exec_of_execNext (.unserviced now seg s' (by rwa [hgrid, hfsm])),
      fun e he => same_deliver _ _ (same_lineHigh he), rfl⟩
  case first now seg hserviced hfirst =>
    obtain ⟨hedge, -, -⟩ := h.edge
    have hts : s'.tsValid = s.tsValid := h.elements .tsValid rfl
    exact ⟨_, exec_of_execNext (.first now seg s' (hedge.mpr hserviced) (hts.trans hfirst)),
      fun e he => same_deliver _ _ (same_firstEdge now (same_lineHigh he)), rfl⟩
  case noise now seg hnoise =>
    obtain ⟨-, hedge, -⟩ := h.edge
    have hlast : s'.lastTs = s.lastTs := h.elements .lastTs rfl
    exact ⟨_, exec_of_execNext (.noise now seg s' (hedge.mpr hnoise)),
      fun e he => same_deliver _ _ (same_measured now hlast (same_lineHigh he)), rfl⟩
  case accepted now seg hacc =>
    obtain ⟨-, -, hedge⟩ := h.edge
    have hlast : s'.lastTs = s.lastTs := h.elements .lastTs rfl
    have hwork : s'.work = s.work := h.elements .work rfl
    refine ⟨_, exec_of_execNext (.accepted now seg s' (hedge.mpr hacc)), fun e he => same_deliver _ _ ?_, rfl⟩
    rw [hlast]
    exact same_startCycle _ seg hwork h.cfg (same_measured now hlast (same_lineHigh he))
  case tex hen =>
    have hen' : s'.tmrEn = s.tmrEn := h.elements .tmrEn rfl
    exact ⟨_, exec_of_execNext (.tex s' (hen'.trans hen)), fun e he => same_deliver _ _ (same_timerExpire he), rfl⟩
  case finalTick v hfinal =>
    obtain ⟨hen, hpend, hpos⟩ := hfinal
    have hen' : s'.tmrEn = s.tmrEn := h.elements .tmrEn rfl
    have hpend' : s'.tmrPending = s.tmrPending := h.elements .tmrPending rfl
    have hpos' : s'.pos = s.pos := h.elements .pos rfl
    obtain ⟨hsampled, hclass⟩ := h.sampledAlike 13
    exact ⟨_, exec_of_execNext (.finalTick v s' ⟨hen'.trans hen, hpend'.trans hpend, hpos'.trans hpos⟩),
      fun e he => same_deliver _ _ (same_finishCycle hclass (hsampled e he)), rfl⟩
  case tick v hen hpend hlt =>
    have hen' : s'.tmrEn = s.tmrEn := h.elements .tmrEn rfl
    have hpend' : s'.tmrPending = s.tmrPending := h.elements .tmrPending rfl
    have hpos' : s'.pos = s.pos := h.elements .pos rfl
    have hreload : s'.reload = s.reload := h.elements .reload rfl
    obtain ⟨hsampled, -⟩ := h.sampledAlike s.pos
    refine ⟨_, exec_of_execNext (.tick v s' (hen'.trans hen) (hpend'.trans hpend) (hpos' ▸ hlt)),
      fun e he => same_deliver _ _ ?_, rfl⟩
    rw [hpos']
    exact same_nextPosition s.pos hreload h.cfg (hsampled e he)
  case mst => exact ⟨_, exec_of_execNext (.mst s'), fun e he => same_deliver _ _ (same_tickWatchdog he), rfl⟩
  case popNone hempty =>
    have hhead : s'.qHead = s.qHead := h.elements .qHead rfl
    have htail : s'.qTail = s.qTail := h.elements .qTail rfl
    exact ⟨_, exec_of_execNext (.popNone s' (by rw [hhead, htail, hempty])), fun e he => same_answer _ _ he, rfl⟩
  case popSome b hr hne hb =>
    have hhead : s'.qHead = s.qHead := h.elements .qHead rfl
    have htail : s'.qTail = s.qTail := h.elements .qTail rfl
    exact ⟨_, exec_of_execNext (.popSome s' (by rwa [hhead, htail]) b (hb.trans h.readEvent_eq.symm) hr),
      fun e he => same_deliver _ _ (same_advanceTail he), rfl⟩
  case srd idx k hk =>
    exact ⟨_, exec_of_execNext (.srd idx k s' hk), fun e he => same_answer _ _ he, congrArg Result.field h.readField_eq⟩
  case wrd =>
    have hwdg : s'.wdg = s.wdg := h.elements .wdg rfl
    exact ⟨_, exec_of_execNext (.wrd s'), fun e he => same_answer _ _ he, by simp [wdgExpired, hwdg, h.cfg]⟩
  case drd k hk =>
    exact ⟨_, exec_of_execNext (.drd k s' hk), fun e he => same_answer _ _ he, congrArg Result.word h.diagWord_eq⟩
  case flg f => exact ⟨_, exec_of_execNext (.flg f s'), fun e he => same_deliver _ _ (same_setFlags f he), rfl⟩
  case evNormal executing idx =>
    exact ⟨_, exec_of_execNext (.evNormal executing idx s'), fun e he => same_answer _ _ he, rfl⟩
  case evIdle executing =>
    exact ⟨_, exec_of_execNext (.evIdle executing s'), fun e he => same_answer _ _ he, rfl⟩

/-- An operation that stops stops alike from a state that agrees in what it may read. -/
theorem exec_completes_or_stops_alike {i : Instr} {s s' : State} (h : ReadsAgree i s s') :
    (∃ t, exec i s = .next t) ∨ exec i s' = exec i s := by
  cases i with
  | tex =>
    have hen : s'.tmrEn = s.tmrEn := h.elements .tmrEn rfl
    rcases execTex_cases s with ⟨-, hx⟩ | ⟨hoff, hx⟩
    · exact .inl ⟨_, hx⟩
    · exact .inr (by simp [exec, execTex, texEnabled, hen, hoff])
  | ttk v =>
    have hen : s'.tmrEn = s.tmrEn := h.elements .tmrEn rfl
    have hpend : s'.tmrPending = s.tmrPending := h.elements .tmrPending rfl
    rcases execTtk_cases v s with ⟨hoff, hx⟩ | ⟨-, -, -, hx⟩ | ⟨-, -, -, hx⟩
    · rcases execTtk_cases v s' with ⟨-, hx'⟩ | ⟨hen', hpend', -⟩ | ⟨hen', hpend', -⟩
      · exact .inr (hx'.trans hx.symm)
      · simp [← hen, ← hpend, hen', hpend'] at hoff
      · simp [← hen, ← hpend, hen', hpend'] at hoff
    · exact .inl ⟨_, hx⟩
    · exact .inl ⟨_, hx⟩
  | pop =>
    have hhead : s'.qHead = s.qHead := h.elements .qHead rfl
    have htail : s'.qTail = s.qTail := h.elements .qTail rfl
    rcases execPop_cases s with ⟨-, hx⟩ | ⟨hne, hr, hx⟩ | ⟨-, -, hx⟩
    · exact .inl ⟨_, hx⟩
    · rcases execPop_cases s' with ⟨hempty, -⟩ | ⟨-, -, hx'⟩ | ⟨-, hr', -⟩
      · exact absurd (hhead.symm.trans (hempty.trans htail)) hne
      · rw [h.readEvent_eq] at hx'
        exact .inr (hx'.trans hx.symm)
      · simp [h.readEvent_eq, hr] at hr'
    · exact .inl ⟨_, hx⟩
  | srd idx k =>
    rcases execSrd_cases idx k s with ⟨-, hx⟩ | ⟨hoff, hx⟩
    · exact .inl ⟨_, hx⟩
    · rcases execSrd_cases idx k s' with ⟨hon, -⟩ | ⟨-, hx'⟩
      · omega
      · exact .inr (hx'.trans hx.symm)
  | drd k =>
    rcases execDrd_cases k s with ⟨-, hx⟩ | ⟨hoff, hx⟩
    · exact .inl ⟨_, hx⟩
    · rcases execDrd_cases k s' with ⟨hon, -⟩ | ⟨-, hx'⟩
      · omega
      · exact .inr (hx'.trans hx.symm)
  | _ => exact .inl ⟨_, rfl⟩

/-- An element that no context of an operation may read reaches, at most, itself. -/
theorem exec_agreeExcept {i : Instr} {s s' : State} {e : Element} (hr : ∀ a ∈ i.agents, mayRead a e = false)
    (hd : DifferOnlyIn e s s') : AgreeExcept e (exec i s) (exec i s') := by
  have hreads := readsAgree_of_differOnlyIn hr hd
  obtain ⟨hsame, -⟩ := hd
  obtain ⟨t, hx⟩ | hstop := exec_completes_or_stops_alike hreads
  · obtain ⟨t', hx', halike, hout⟩ := execNext_alike hreads (execNext_of_exec hx)
    rw [hx, hx']
    exact ⟨fun e' he' => halike e' (hsame e' he'), hout⟩
  · rw [hstop]
    cases exec i s with
    | next t => exact ⟨fun e' _ => e'.same_refl t, rfl⟩
    | fault f => rfl
    | refused r => rfl

/-- What PRODUCER may do to the two elements it shares with TIMER and TICKER (the entries of rule R135). -/
theorem producer_only_clears {i : Instr} {s t : State} (hx : exec i s = .next t) (hp : .producer ∈ i.agents) :
    (t.tmrPending = s.tmrPending ∨ t.tmrPending = false) ∧ (t.wdg = s.wdg ∨ t.wdg = 0) := by
  cases execNext_of_exec hx
  case unserviced | first | noise | accepted | finalTick | tick => simp
  all_goals simp [Instr.agents] at hp

/-- Settles O42: the writes by `exec_respects_mayWrite`, the reads by `exec_agreeExcept`, and the entries of TIMER and TICKER
by their one operation each. -/
theorem accessRightsAreRespected : Obligations.AccessRightsAreRespected := by
  unfold Obligations.AccessRightsAreRespected
  refine ⟨fun i s t e hx he => ⟨exec_respects_mayWrite hx he, exec_keeps_cfg hx⟩, fun i s s' e => exec_agreeExcept,
    fun i s t hx => ⟨fun ht => ?_, fun hp => (producer_only_clears hx hp).1, fun hp => (producer_only_clears hx hp).2,
      fun ht => ?_⟩⟩
  · cases execNext_of_exec hx
    case tex => rfl
    all_goals simp [Instr.agents] at ht
  · cases execNext_of_exec hx
    case mst => exact satInc_toNat s.wdg
    all_goals simp [Instr.agents] at ht

end Sys2Proof.Machine
end

section
/-!
PROOFS. Whole cycles (rule R66 of 30_encoding.md; rules R85 to R105): what holds after `n` samples of a cycle, from the
accepted edge to the classification, and the runs of cycles of the source's scenarios (T8, T9).
-/

namespace Sys2Proof.Machine

theorem runOps_cons {i : Instr} {s t : State} (ops : List Instr) (h : exec i s = .next t) :
    runOps (i :: ops) s = runOps ops t := by
  simp [runOps, h]

theorem runOps_pair {i j : Instr} {s t u : State} (hi : exec i s = .next t) (hj : exec j t = .next u) :
    runOps [i, j] s = .next u := by
  simp [runOps, hi, hj]

/-- Operations after operations that complete run from where those end. -/
theorem runOps_append {as : List Instr} {s t : State} (bs : List Instr) (h : runOps as s = .next t) :
    runOps (as ++ bs) s = runOps bs t := by
  induction as generalizing s with
  | nil => cases h; rfl
  | cons i as ih =>
    cases hx : exec i s with
    | next u =>
      rw [runOps_cons as hx] at h
      rw [List.cons_append, runOps_cons (as ++ bs) hx, ih h]
    | fault f => simp [runOps, hx] at h
    | refused r => simp [runOps, hx] at h

/-- A mask is empty when no position's bit is set. -/
theorem mask_eq_zero_iff (m : Mask) : m = 0 ↔ ∀ p : Position, m.getLsbD p.val = false := by
  refine ⟨fun h p => by simp [h], fun h => BitVec.eq_of_getLsbD_eq fun i hi => ?_⟩
  simpa using h ⟨i, hi⟩

/-- The elements a cycle writes before its line is classified. -/
def cycleElements : List Element :=
  [.work, .chgMask, .nbMask, .pos, .fsm, .tmrEn, .wdg, .lastTs, .period, .reload, .tmrReload, .tmrPending, .gridQ]

/-- From `s`, the samples of positions 0 to `n - 1` of a cycle have been taken: the working line and the masks hold them
and, beyond, what the cycle began with (rules R80, R87), and nothing but the cycle's own elements has changed. -/
structure SamplesTaken (s : State) (segs : Vector Byte 14) (n : Nat) (t : State) : Prop where
  work : ∀ p : Position, t.work[p.val] = if p.val < n then segs[p.val] else s.work[p.val]
  chgMask : ∀ p : Position, t.chgMask.getLsbD p.val =
    (decide (p.val < n) && (partChg s p && (segs[p.val] != s.work[p.val])))
  nbMask : ∀ p : Position, t.nbMask.getLsbD p.val = (decide (p.val < n) && (partNb s p && (segs[p.val] != 0)))
  frame : ChangesOnly cycleElements s t

/-- The registers that time the cycle begun at `now`, after `n` samples (rules R74, R76, R92). -/
structure CycleTimed (s : State) (now : Word) (n : Nat) (t : State) : Prop where
  wdg : t.wdg = 0
  lastTs : t.lastTs = now
  period : t.period = measuredPeriod now s
  reload : t.reload = t.period / 14#32 - BitVec.ofNat 32 (corrections n) * s.cfg.corrStep
  tmrReload : 2 ≤ n → t.tmrReload = t.reload

/-- Participation is that of the state the cycle began in: it depends on the flags and the configuration (rule R86). -/
theorem SamplesTaken.part_eq {s t : State} {segs : Vector Byte 14} {n : Nat} (h : SamplesTaken s segs n t)
    (p : Position) : partChg t p = partChg s p ∧ partNb t p = partNb s p := by
  obtain ⟨hsame, hcfg, -⟩ := h.frame
  have hhex : t.fHex = s.fHex := hsame .fHex (by decide)
  have hkey : t.fKey = s.fKey := hsame .fKey (by decide)
  simp only [partChg, partNb, vkOn, hhex, hkey, hcfg, and_self]

/-- What a cycle leaves to the classification as it found it. -/
theorem SamplesTaken.kept {s u : State} {segs : Vector Byte 14} {n : Nat} (h : SamplesTaken s segs n u) :
    u.cfg = s.cfg ∧ u.tsValid = s.tsValid ∧ u.wr = s.wr ∧ u.idleRun = s.idleRun ∧ u.idleCnt = s.idleCnt ∧
    u.qHead = s.qHead ∧ u.qTail = s.qTail ∧ u.qOverrun = s.qOverrun ∧ (∀ j, readSlot u j = readSlot s j) ∧
    (∀ j, readEntry u j = readEntry s j) := by
  obtain ⟨hsame, hcfg, -⟩ := h.frame
  exact ⟨hcfg, hsame .tsValid (by decide), hsame .wr (by decide), hsame .idleRun (by decide), hsame .idleCnt (by decide),
    hsame .qHead (by decide), hsame .qTail (by decide), hsame .qOverrun (by decide), hsame .hist (by decide),
    hsame .qBuf (by decide)⟩

/-- The sample of position `n` is the next one (rule R87). -/
theorem SamplesTaken.sample {s t : State} {segs : Vector Byte 14} {p : Position} (h : SamplesTaken s segs p.val t) :
    SamplesTaken s segs (p.val + 1) (sample p segs[p.val] t) := by
  obtain ⟨hchg, hnb⟩ := h.part_eq p
  have hbefore : t.work[p.val] = s.work[p.val] := by simp [h.work p]
  have hlt (q : Position) : q.val < p.val + 1 ↔ q.val < p.val ∨ q = p := by
    rw [Fin.ext_iff]
    omega
  refine ⟨fun q => ?_, fun q => ?_, fun q => ?_, (h.frame.trans (sample_changesOnly p _ t)).mono (by decide)⟩
  · rw [sample_work, work_set_get, h.work q]
    by_cases hq : q = p
    · subst hq; simp
    · simp [hlt, hq]
  · rw [sample_chgMask, foldMask_getLsbD, h.chgMask q, hchg, hbefore]
    by_cases hq : q = p
    · subst hq; simp
    · simp [hlt, hq]
  · rw [sample_nbMask, foldMask_getLsbD, h.nbMask q, hnb]
    by_cases hq : q = p
    · subst hq; simp
    · simp [hlt, hq]

/-- Re-programming the timer and moving on leave the samples (rules R89, R92). -/
theorem SamplesTaken.of_timer {s t u : State} {segs : Vector Byte 14} {n : Nat} {es : List Element}
    (h : SamplesTaken s segs n t) (hframe : ChangesOnly es t u)
    (hes : ∀ e ∈ es, e ∈ [Element.reload, .tmrReload, .tmrPending, .pos]) : SamplesTaken s segs n u := by
  have htimer := hframe.mono hes
  have ⟨hsame, _⟩ := htimer
  have hwork : u.work = t.work := hsame .work (by decide)
  have hchg : u.chgMask = t.chgMask := hsame .chgMask (by decide)
  have hnb : u.nbMask = t.nbMask := hsame .nbMask (by decide)
  exact ⟨hwork ▸ h.work, hchg ▸ h.chgMask, hnb ▸ h.nbMask, (h.frame.trans htimer).mono (by decide)⟩

/-- The accepted edge takes the first sample (rules R72 to R80). -/
theorem runOps_cycleStart {s : State} (now : Word) (segs : Vector Byte 14) (hfsm : s.fsm ≠ .sampling)
    (hts : s.tsValid = true) (hfloor : s.cfg.periodFloor.toNat ≤ (measuredPeriod now s).toNat) :
    ∃ t, runOps [.grd0, .grd1 now segs[0]] s = .next t ∧ SamplesTaken s segs 1 t ∧ CycleTimed s now 1 t ∧
      t.tmrEn = true ∧ t.pos = 1 := by
  have hlow := exec_of_execNext (.grd0 s)
  have hacc : edgeAccepted now (deliver .nothing (lineLow s)) := ⟨⟨rfl, hfsm⟩, hts, hfloor⟩
  have hedge := exec_of_execNext (.accepted now segs[0] _ hacc)
  have hframe := ((((lineLow_changesOnly s).deliver .nothing).trans (lineHigh_changesOnly _)).trans
    (measured_changesOnly now _)).trans (startCycle_changesOnly (now - s.lastTs) segs[0] _)
  have hzero (q : Position) : q.val < 1 ↔ q = 0 := by
    rw [Fin.ext_iff]
    simp
  refine ⟨_, runOps_pair hlow hedge, ⟨fun q => ?_, fun q => ?_, fun q => ?_,
    (hframe.deliver .nothing).mono (by decide)⟩, ⟨rfl, rfl, rfl, by simp [corrections], fun h => by omega⟩, rfl, rfl⟩
  · have hset := work_set_get s.work 0 q segs[0]
    simp only [hzero]
    refine Eq.trans hset (ite_congr rfl (fun hq => ?_) (fun _ => rfl))
    subst hq
    rfl
  · simp only [deliver_chgMask, startCycle_chgMask, foldMask_getLsbD, hzero]
    by_cases hq : q = 0
    · subst hq; simp [partChg]
    · simp [hq]
  · simp only [deliver_nbMask, startCycle_nbMask, foldMask_getLsbD, hzero]
    by_cases hq : q = 0
    · subst hq; simp [partNb]
    · simp [hq]

/-- One expiry and its service before the last position (rules R88 to R92). -/
theorem runOps_cycleTick {s t : State} {now : Word} {segs : Vector Byte 14} {p : Position} (hlo : 1 ≤ p.val)
    (hhi : p.val < 13) (hs : SamplesTaken s segs p.val t) (ht : CycleTimed s now p.val t) (hen : t.tmrEn = true)
    (hpos : t.pos = p) :
    ∃ u, runOps [.tex, .ttk segs[p.val]] t = .next u ∧ SamplesTaken s segs (p.val + 1) u ∧
      CycleTimed s now (p.val + 1) u ∧ u.tmrEn = true ∧ u.pos = p + 1 := by
  subst hpos
  have hexpire := exec_of_execNext (.tex t hen)
  have htick := exec_of_execNext (.tick segs[t.pos.val] (deliver .nothing (timerExpire t)) hen rfl hhi)
  have hexpired := hs.of_timer ((timerExpire_changesOnly t).deliver .nothing) (by decide)
  obtain ⟨hcfg, -⟩ := hs.kept
  have hreload : t.reload = t.period / 14#32 - BitVec.ofNat 32 (corrections t.pos.val) * t.cfg.corrStep := by
    rw [ht.reload, hcfg]
  have hnext := nextPosition_reload_eq (s := sample t.pos segs[t.pos.val] (deliver .nothing (timerExpire t))) _ hhi hreload
  rw [position_succ_val hhi] at hnext
  refine ⟨_, runOps_pair hexpire htick, ?_, ?_, hen, rfl⟩
  · exact hexpired.sample.of_timer ((nextPosition_changesOnly _ _).deliver .nothing) (by decide)
  · exact ⟨ht.wdg, ht.lastTs, ht.period, hcfg ▸ hnext, fun _ => rfl⟩

/-- The expiry and service of the last position (rule R93). -/
theorem runOps_cycleEnd {s t : State} {now : Word} {segs : Vector Byte 14} (hs : SamplesTaken s segs 13 t)
    (ht : CycleTimed s now 13 t) (hen : t.tmrEn = true) (hpos : t.pos = 13) :
    ∃ u, runOps [.tex, .ttk segs[13]] t = .next (deliver .nothing (finishCycle u)) ∧ SamplesTaken s segs 14 u ∧
      CycleTimed s now 14 u ∧ u.tmrPending = true := by
  have hexpire := exec_of_execNext (.tex t hen)
  have htick := exec_of_execNext (.finalTick segs[13] (deliver .nothing (timerExpire t)) ⟨hen, rfl, hpos⟩)
  have hexpired := hs.of_timer ((timerExpire_changesOnly t).deliver .nothing) (by decide)
  refine ⟨_, runOps_pair hexpire htick, hexpired.sample (p := 13), ?_, rfl⟩
  exact ⟨ht.wdg, ht.lastTs, ht.period, ht.reload, fun _ => ht.tmrReload (by omega)⟩

/-- The rest of a cycle, from the position reached to the last, by induction on the positions left. -/
theorem runOps_cycleRest {s t : State} {now : Word} {segs : Vector Byte 14} {p : Position} (hlo : 1 ≤ p.val)
    (hs : SamplesTaken s segs p.val t) (ht : CycleTimed s now p.val t) (hen : t.tmrEn = true) (hpos : t.pos = p) :
    ∃ u, runOps ((segs.toList.drop p.val).flatMap fun v => [.tex, .ttk v]) t = .next (deliver .nothing (finishCycle u)) ∧
      SamplesTaken s segs 14 u ∧ CycleTimed s now 14 u ∧ u.tmrPending = true := by
  induction hleft : 13 - p.val generalizing p t with
  | zero =>
    obtain rfl : p = 13 := Fin.ext (by have := p.isLt; simp; omega)
    have hlast : (segs.toList.drop 13).flatMap (fun v => [Instr.tex, .ttk v]) = [.tex, .ttk segs[13]] := by
      rw [List.drop_eq_getElem_cons (by simp), List.drop_eq_nil_of_le (by simp)]
      simp
    obtain ⟨u, hrun, hu⟩ := runOps_cycleEnd hs ht hen hpos
    exact ⟨u, by rw [← hrun, ← hlast]; rfl, hu⟩
  | succ k ih =>
    have hhi : p.val < 13 := by omega
    have hsplit : (segs.toList.drop p.val).flatMap (fun v => [Instr.tex, .ttk v]) =
        [.tex, .ttk segs[p.val]] ++ (segs.toList.drop (p.val + 1)).flatMap fun v => [Instr.tex, .ttk v] := by
      rw [List.drop_eq_getElem_cons (by simp)]
      simp
    obtain ⟨t', hrun, hs', ht', hen', hpos'⟩ := runOps_cycleTick hlo hhi hs ht hen hpos
    have hsucc := position_succ_val hhi
    rw [hsplit, runOps_append _ hrun, ← hsucc]
    exact ih (p := p + 1) (by omega) (hsucc ▸ hs') (hsucc ▸ ht') hen' hpos' (by omega)

/-- A whole cycle: all fourteen samples taken, then the line classified once (rule R66). -/
theorem runOps_cycle {s : State} (now : Word) (segs : Vector Byte 14) (hfsm : s.fsm ≠ .sampling)
    (hts : s.tsValid = true) (hfloor : s.cfg.periodFloor.toNat ≤ (measuredPeriod now s).toNat) :
    ∃ u, runOps (expand (.cycle now segs)) s = .next (deliver .nothing (finishCycle u)) ∧ SamplesTaken s segs 14 u ∧
      CycleTimed s now 14 u ∧ u.tmrPending = true := by
  obtain ⟨t, hrun, hs, ht, hen, hpos⟩ := runOps_cycleStart now segs hfsm hts hfloor
  obtain ⟨u, hrest, hu⟩ := runOps_cycleRest (p := 1) le_rfl hs ht hen hpos
  exact ⟨u, (runOps_append _ hrun).trans hrest, hu⟩

/-- After all fourteen samples the working line is the line shown. -/
theorem SamplesTaken.work_eq {s u : State} {segs : Vector Byte 14} (h : SamplesTaken s segs 14 u) : u.work = segs :=
  Vector.ext fun i hi => by simpa [hi] using h.work ⟨i, hi⟩

/-- Settles O54: fourteen samples (`runOps_cycle`), then one of the three ends of a cycle. -/
theorem wholeCycleSamplesFourteenPositionsAndClassifiesOnce :
    Obligations.WholeCycleSamplesFourteenPositionsAndClassifiesOnce := by
  unfold Obligations.WholeCycleSamplesFourteenPositionsAndClassifiesOnce
  intro s now segs hfsm hts hfloor
  obtain ⟨u, hrun, hs, ht, hpend⟩ := runOps_cycle now segs hfsm hts hfloor
  obtain ⟨hcfg, hts', hwr, hidleRun, hcnt, hhead, htail, hover, -, -⟩ := hs.kept
  obtain ⟨hsame, -⟩ := hs.frame
  have hhex : u.fHex = s.fHex := hsame .fHex (by decide)
  have hkey : u.fKey = s.fKey := hsame .fKey (by decide)
  refine ⟨_, hrun, by simp, by simp, by simp, by simpa using hpend, by simpa using ht.wdg, by simpa using ht.lastTs,
    by simp [hts', hts], by simpa using ht.period, by simpa [corrections] using ht.reload,
    by simpa using ht.tmrReload (by omega),
    by simpa using hs.work_eq, by simpa using hcfg, by simpa using hhex, by simpa using hkey, by simpa using htail,
    fun p => ?_, fun p => ?_, fun h => ?_, fun h => ?_, fun h => ?_⟩
  · simpa using hs.chgMask p
  · simpa using hs.nbMask p
  · obtain ⟨hc, hn⟩ := h
    obtain ⟨h1, h2, h3, -⟩ := finishCycle_normal u (by simpa using hc) (by simpa using hn)
    exact ⟨by simpa [hcfg, hwr] using h1, h2, h3⟩
  · obtain ⟨h1, h2, h3, -⟩ := finishCycle_blank u (by simpa using h)
    exact ⟨h1.trans hwr, h2, by simpa [hidleRun, hcnt] using h3⟩
  · obtain ⟨hc, hn⟩ := h
    obtain ⟨h1, h2, h3, h4, h5, -⟩ := finishCycle_unchanged u (by simpa using hc) (by simpa using hn)
    exact ⟨h1.trans hwr, h2.trans hidleRun, h3.trans hcnt, h4.trans hhead, h5.trans hover⟩

/-- A cycle leaves the block ready for the next one: no cycle in progress, the time of its edge held, the working line the
one it showed. -/
theorem cycle_leaves_ready {s u : State} {now : Word} {segs : Vector Byte 14} (hs : SamplesTaken s segs 14 u)
    (ht : CycleTimed s now 14 u) :
    (deliver .nothing (finishCycle u)).fsm ≠ .sampling ∧ (deliver .nothing (finishCycle u)).tsValid = s.tsValid ∧
    (deliver .nothing (finishCycle u)).cfg = s.cfg ∧ (deliver .nothing (finishCycle u)).lastTs = now ∧
    (deliver .nothing (finishCycle u)).work = segs := by
  obtain ⟨hcfg, hts, -⟩ := hs.kept
  exact ⟨by simp, by simpa using hts, by simpa using hcfg, by simpa using ht.lastTs, by simpa using hs.work_eq⟩

/-- What one all-zero cycle does: it is blank, so it leaves history, and its event is queued if it is the first of a run
(rule R101). -/
structure AfterBlankCycle (s : State) (now : Word) (t : State) : Prop where
  fsm : t.fsm ≠ .sampling
  tsValid : t.tsValid = s.tsValid
  cfg : t.cfg = s.cfg
  lastTs : t.lastTs = now
  idleRun : t.idleRun = true
  idleCnt : t.idleCnt = if s.idleRun then s.idleCnt + 1 else s.idleCnt
  wr : t.wr = s.wr
  slots : ∀ j, readSlot t j = readSlot s j
  later : s.idleRun = true → t.qHead = s.qHead ∧ t.qOverrun = s.qOverrun ∧ ∀ j, readEntry t j = readEntry s j
  first : s.idleRun = false → queueCount s ≠ s.cfg.queueCap → t.qHead = s.qHead + 1 ∧ t.qOverrun = s.qOverrun ∧
    readEntry t (queuePos s.cfg s.qHead) = some (evt clsIdle (decide (s.cfg.execSentinel = 0)) 0)

theorem runOps_blankCycle {s : State} (now : Word) (hfsm : s.fsm ≠ .sampling) (hts : s.tsValid = true)
    (hfloor : s.cfg.periodFloor.toNat ≤ (measuredPeriod now s).toNat) :
    ∃ t, runOps (expand (.cycle now (Vector.replicate 14 0))) s = .next t ∧ AfterBlankCycle s now t := by
  obtain ⟨u, hrun, hs, ht, -⟩ := runOps_cycle now (Vector.replicate 14 0) hfsm hts hfloor
  obtain ⟨hcfg, -, hwr, hidleRun, hcnt, hhead, htail, hover, hslot, hentry⟩ := hs.kept
  obtain ⟨hfsm', hts', hcfg', hlast', -⟩ := cycle_leaves_ready hs ht
  have hblank : u.nbMask = 0 := (mask_eq_zero_iff _).mpr fun p => by rw [hs.nbMask p]; simp
  have hexec : execFlag u = decide (s.cfg.execSentinel = 0) := by
    rw [Bool.eq_iff_iff, execFlag_iff, decide_eq_true_iff, hs.work_eq, Vector.getElem_replicate, hcfg]
    exact eq_comm
  obtain ⟨hw, hr, hc, hsl, hlater, hfirst⟩ := finishCycle_blank u hblank
  refine ⟨_, hrun, hfsm', hts', hcfg', hlast', hr, by simpa [hidleRun, hcnt] using hc, hw.trans hwr,
    fun j => (hsl j).trans (hslot j), fun h => ?_, fun h hroom => ?_⟩
  · obtain ⟨h1, h2, h3⟩ := hlater (hidleRun.trans h)
    exact ⟨h1.trans hhead, h2.trans hover, fun j => (h3 j).trans (hentry j)⟩
  · obtain ⟨h1, h2, h3⟩ := hfirst (hidleRun.trans h)
    have hroom' : queueCount u ≠ u.cfg.queueCap := by rwa [queueCount_congr hhead htail, hcfg]
    obtain ⟨hqueued, -⟩ := queue_of_push h1 h2 h3
    obtain ⟨hh, ho, hread, -⟩ := hqueued hroom'
    rw [hexec, hcfg, hhead] at hread
    exact ⟨hh.trans (by rw [hhead]), ho.trans hover, hread⟩

/-- Later blank cycles of a run only count (rule R101), by induction on the edges. -/
theorem runOps_laterBlankCycles {s : State} (edges : List Word) (hfsm : s.fsm ≠ .sampling) (hts : s.tsValid = true)
    (hrun : s.idleRun = true) (hedges : PlausiblePeriods s.cfg s.lastTs edges) :
    ∃ t, runOps (edges.flatMap fun now => expand (.cycle now (Vector.replicate 14 0))) s = .next t ∧ t.idleRun = true ∧
      t.idleCnt = s.idleCnt + BitVec.ofNat 16 edges.length ∧ t.wr = s.wr ∧ (∀ j, readSlot t j = readSlot s j) ∧
      t.qHead = s.qHead ∧ t.qOverrun = s.qOverrun ∧ ∀ j, readEntry t j = readEntry s j := by
  induction edges generalizing s with
  | nil => exact ⟨s, rfl, hrun, by simp, rfl, fun _ => rfl, rfl, rfl, fun _ => rfl⟩
  | cons now edges ih =>
    obtain ⟨hfloor, hrest⟩ := hedges
    obtain ⟨u, hcycle, hu⟩ := runOps_blankCycle now hfsm hts hfloor
    have hplausible : PlausiblePeriods u.cfg u.lastTs edges := by rwa [hu.cfg, hu.lastTs]
    obtain ⟨t, hrun', hr, hc, hw, hsl, hh, ho, he⟩ := ih hu.fsm (hu.tsValid.trans hts) hu.idleRun hplausible
    obtain ⟨hh', ho', he'⟩ := hu.later hrun
    refine ⟨t, ?_, hr, ?_, hw.trans hu.wr, fun j => (hsl j).trans (hu.slots j), hh.trans hh', ho.trans ho',
      fun j => (he j).trans (he' j)⟩
    · rw [List.flatMap_cons, runOps_append _ hcycle, hrun']
    · rw [hc, hu.idleCnt, hrun, if_pos rfl, List.length_cons, Nat.add_comm edges.length 1, BitVec.ofNat_add,
        BitVec.add_assoc]
      rfl

/-- Settles O55: the first cycle of the run queues its event (`runOps_blankCycle`), the others count. -/
theorem blankRunQueuesOneIdleEventAndCountsTheRest : Obligations.BlankRunQueuesOneIdleEventAndCountsTheRest := by
  unfold Obligations.BlankRunQueuesOneIdleEventAndCountsTheRest
  intro s first later hfsm hts hrun hroom hedges
  obtain ⟨hfloor, hrest⟩ := hedges
  obtain ⟨u, hcycle, hu⟩ := runOps_blankCycle first hfsm hts hfloor
  have hplausible : PlausiblePeriods u.cfg u.lastTs later := by rwa [hu.cfg, hu.lastTs]
  obtain ⟨t, hlater, hr, hc, hw, hsl, hh, ho, he⟩ :=
    runOps_laterBlankCycles later hu.fsm (hu.tsValid.trans hts) hu.idleRun hplausible
  obtain ⟨hh', ho', he'⟩ := hu.first hrun hroom
  refine ⟨t, by rw [List.flatMap_cons, runOps_append _ hcycle, hlater], hr, ?_, hw.trans hu.wr,
    fun j => (hsl j).trans (hu.slots j), hh.trans hh', ho.trans ho', (he _).trans he'⟩
  simp [hc, hu.idleCnt, hrun]

/-- Settles O56: in the second cycle no position differs from the working line the first left, and the digit shown is not
blank, so the line is unchanged. -/
theorem repeatedLineQueuesNothing : Obligations.RepeatedLineQueuesNothing := by
  unfold Obligations.RepeatedLineQueuesNothing
  intro s t1 t2 now1 now2 segs hfsm hts hedges hdigit hrun1 hrun2
  obtain ⟨hfloor1, hfloor2, -⟩ := hedges
  obtain ⟨p, hp, hlit⟩ := hdigit
  obtain ⟨u1, hcycle1, hs1, ht1, -⟩ := runOps_cycle now1 segs hfsm hts hfloor1
  obtain rfl : _ = t1 := Host.Outcome.next.inj (hcycle1.symm.trans hrun1)
  obtain ⟨hfsm', hts', hcfg', hlast', hwork'⟩ := cycle_leaves_ready hs1 ht1
  obtain ⟨u2, hcycle2, hs2, -, -⟩ := runOps_cycle now2 segs hfsm' (hts'.trans hts)
    (by rwa [measuredPeriod, hcfg', hlast'])
  obtain rfl : _ = t2 := Host.Outcome.next.inj (hcycle2.symm.trans hrun2)
  have hunchanged : u2.chgMask = 0 := (mask_eq_zero_iff _).mpr fun q => by rw [hs2.chgMask q, hwork']; simp
  have hnonblank : u2.nbMask ≠ 0 := fun h => by
    have hbit := (mask_eq_zero_iff _).mp h p
    rw [hs2.nbMask p] at hbit
    simp only [partNb, hp] at hbit
    exact hlit (by simpa using hbit)
  obtain ⟨-, -, hwr, hrun, hcnt, hhead, -, hover, hslot, hentry⟩ := hs2.kept
  obtain ⟨hsame, -⟩ := (finishCycle_unchanged_changesOnly hunchanged hnonblank).deliver .nothing
  exact ⟨(hsame .qHead (by decide)).trans hhead, (hsame .qOverrun (by decide)).trans hover,
    (hsame .wr (by decide)).trans hwr, (hsame .idleCnt (by decide)).trans hcnt, (hsame .idleRun (by decide)).trans hrun,
    fun j => (hsame .hist (by decide) j).trans (hslot j), fun j => (hsame .qBuf (by decide) j).trans (hentry j)⟩

end Sys2Proof.Machine
end

section
/-!
PROOFS. Executions (rule R151; log 24): the time of the last serviced edge, a published slot until it is published again,
and the end of every cycle under fairness.
-/

namespace Sys2Proof.Machine

/-! The measured period (rules R76, R158). -/

/-- A serviced edge records its time, and measures the time since the one before it (rules R75, R76). -/
theorem exec_of_edgeServiced {now : Word} {seg : Byte} {s t : State} (hx : exec (.grd1 now seg) s = .next t)
    (he : edgeServiced s) : t.lastTs = now ∧ (s.tsValid = true → t.period = now - s.lastTs) := by
  cases execNext_of_exec hx with
  | unserviced _ _ _ h =>
    obtain ⟨hgrid, hfsm⟩ := he
    simp [hgrid, hfsm] at h
  | first _ _ _ _ hts => exact ⟨rfl, fun h => by simp [hts] at h⟩
  | noise => exact ⟨rfl, fun _ => rfl⟩
  | accepted => exact ⟨rfl, fun _ => rfl⟩

/-- Only a serviced edge writes `last_ts`, but for `RST`, which clears `ts_valid` (rules R24, R25). -/
theorem exec_keeps_lastTs {i : Instr} {s t : State} (hx : exec i s = .next t)
    (hns : ¬ ((∃ now seg, i = .grd1 now seg) ∧ edgeServiced s)) (hts : t.tsValid = true) :
    s.tsValid = true ∧ t.lastTs = s.lastTs := by
  cases execNext_of_exec hx
  case rst => simp at hts
  case first now seg he _ => exact absurd ⟨⟨now, seg, rfl⟩, he⟩ hns
  case noise now seg h =>
    obtain ⟨he, -⟩ := h
    exact absurd ⟨⟨now, seg, rfl⟩, he⟩ hns
  case accepted now seg h =>
    obtain ⟨he, -⟩ := h
    exact absurd ⟨⟨now, seg, rfl⟩, he⟩ hns
  all_goals exact ⟨by simpa using hts, by simp⟩

/-- Between two serviced edges `last_ts` is the time of the first, while it is valid; by induction on the operations. -/
theorem lastTs_of_servicedAt {st : Nat → State} {op : Nat → Instr} (hx : IsExecution st op) {m n : Nat} {now : Word}
    {seg : Byte} (hop : op m = .grd1 now seg) (he : edgeServiced (st m)) (hmn : m + 1 ≤ n)
    (hbetween : ∀ j, m < j → j < n → ¬ ServicedAt st op j) (hts : (st n).tsValid = true) : (st n).lastTs = now := by
  induction n, hmn using Nat.le_induction with
  | base => exact (exec_of_edgeServiced (hop ▸ hx m) he).1
  | succ n hmn ih =>
    obtain ⟨hts', hlast⟩ := exec_keeps_lastTs (hx n) (hbetween n (by omega) (by omega)) hts
    exact hlast.trans (ih (fun j h1 h2 => hbetween j h1 (by omega)) hts')

/-- Residues modulo `2^32` of a counter that advanced by less have its advance as their difference (rule R158). -/
theorem toNat_ofNat_sub_ofNat {a b : Nat} (hle : b ≤ a) (hlt : a - b < 2 ^ 32) :
    (BitVec.ofNat 32 a - BitVec.ofNat 32 b).toNat = a - b := by
  rw [BitVec.toNat_sub, BitVec.toNat_ofNat, BitVec.toNat_ofNat]
  omega

/-- Under R151(d) the period measured is the counter's true advance. -/
theorem period_eq_clock_advance {st : Nat → State} {op : Nat → Instr} {clock : Nat → Nat} (hx : IsExecution st op)
    (hclock : ClockWithinWrap st op clock) {m n : Nat} (hmn : m < n) (hm : ServicedAt st op m) (hn : ServicedAt st op n)
    (hbetween : ∀ j, m < j → j < n → ¬ ServicedAt st op j) (hts : (st n).tsValid = true) :
    (st (n + 1)).period.toNat = clock n - clock m := by
  have hwrap := hclock.withinWrap m n hmn hm hn hbetween
  obtain ⟨⟨now1, seg1, hop1⟩, he1⟩ := hm
  obtain ⟨⟨now2, seg2, hop2⟩, he2⟩ := hn
  have hlast := lastTs_of_servicedAt hx hop1 he1 hmn hbetween hts
  obtain ⟨-, hperiod⟩ := exec_of_edgeServiced (hop2 ▸ hx n) he2
  rw [hperiod hts, hlast, hclock.drawn n now2 seg2 hop2, hclock.drawn m now1 seg1 hop1]
  exact toNat_ofNat_sub_ofNat (hclock.forward m n hmn.le) hwrap

/-! A published slot (rules R52, R111). -/

/-- An operation that writes a slot is `RST` or publishes a NORMAL line there (rules R49, R100). -/
theorem publishesAt_of_readSlot_ne {st : Nat → State} {op : Nat → Instr} (hx : IsExecution st op) {j : Nat}
    {slot : BitVec 4} (hrst : op j ≠ .rst) (h : readSlot (st (j + 1)) slot.toNat ≠ readSlot (st j) slot.toNat) :
    PublishesAt st op j slot := by
  have hnext := execNext_of_exec (hx j)
  revert h hrst
  generalize hi : op j = i at hnext
  generalize ht : st (j + 1) = t at hnext
  intro hrst h
  cases hnext
  case rst => exact absurd rfl hrst
  case finalTick v hfinal =>
    obtain ⟨hslot, -, hc, hn⟩ := readSlot_finishCycle_ne (s := sample 13 v (st j)) (by simpa using h)
    exact ⟨v, hi, hfinal, hc, hn, BitVec.eq_of_toNat_eq hslot.symm⟩
  all_goals simp at h

/-- A publication writes the working line, its sign byte masked, in its slot (rules R100, R103). -/
theorem readSlot_of_publishesAt {st : Nat → State} {op : Nat → Instr} (hx : IsExecution st op) {p : Nat}
    {slot : BitVec 4} (h : PublishesAt st op p slot) :
    ∃ v, op p = .ttk v ∧ readSlot (st (p + 1)) slot.toNat = some (publishedLine (atClassify v (st p))) := by
  obtain ⟨v, hop, hfinal, hc, hn, rfl⟩ := h
  have hstep : st (p + 1) = deliver .nothing (finishCycle (atClassify v (st p))) :=
    Host.Outcome.next.inj ((hx p).symm.trans (hop ▸ exec_of_execNext (.finalTick v (st p) hfinal)))
  obtain ⟨-, -, -, hslot, -⟩ := finishCycle_normal (atClassify v (st p)) hc hn
  exact ⟨v, hop, by rw [hstep]; exact (hslot _).trans (if_pos rfl)⟩

/-- A slot that is neither published again nor reset stays; by induction on the operations. -/
theorem readSlot_stays {st : Nat → State} {op : Nat → Instr} (hx : IsExecution st op) {p n : Nat} {slot : BitVec 4}
    (hpn : p + 1 ≤ n) (h : ∀ j, p < j → j < n → ¬ PublishesAt st op j slot ∧ op j ≠ .rst) :
    readSlot (st n) slot.toNat = readSlot (st (p + 1)) slot.toNat := by
  induction n, hpn using Nat.le_induction with
  | base => rfl
  | succ n hpn ih =>
    obtain ⟨hpub, hrst⟩ := h n (by omega) (by omega)
    have hsame : readSlot (st (n + 1)) slot.toNat = readSlot (st n) slot.toNat :=
      by_contra fun hne => hpub (publishesAt_of_readSlot_ne hx hrst hne)
    exact hsame.trans (ih fun j h1 h2 => h j h1 (by omega))

/-- `SRD` on a written slot delivers the field of its line (rule R110). -/
theorem out_of_srd {idx k : Byte} {s t : State} {line : ScanLine} (hx : exec (.srd idx k) s = .next t)
    (hline : readSlot s (slotOfIdx s.cfg idx) = some line) : t.out = .field (lineField line k) := by
  cases execNext_of_exec hx
  simp [readField, hline]

/-- Settles O59: the period by `period_eq_clock_advance`; the slot holds what was published (`readSlot_of_publishesAt`)
until it is published again (`readSlot_stays`), and `SRD` reads it. -/
theorem premisesMakePeriodsTrueAndReadsWhole : Obligations.PremisesMakePeriodsTrueAndReadsWhole := by
  unfold Obligations.PremisesMakePeriodsTrueAndReadsWhole
  refine fun st op clock hx =>
    ⟨fun hclock m n => period_eq_clock_advance hx hclock, fun p m n slot idx k hop hslot h => ?_⟩
  obtain ⟨hpub, -, ⟨hpm, hmn⟩, -, hstill⟩ := h
  obtain ⟨v, hv, hwritten⟩ := readSlot_of_publishesAt hx hpub
  have hline := (readSlot_stays hx (by omega) hstill).trans hwritten
  exact ⟨v, hv, hline, out_of_srd (hop ▸ hx n) (by rw [slotOfIdx, ← hslot, hline])⟩

/-! The end of every cycle (rule R159). -/

/-- Every state of an execution keeps the sequencer's invariant (rule R20). -/
theorem sequencerInv_of_isExecution {st : Nat → State} {op : Nat → Instr} (hx : IsExecution st op)
    (h : SequencerInv (st 0)) (n : Nat) : SequencerInv (st n) := by
  induction n with
  | zero => exact h
  | succ n ih => exact exec_keeps_sequencerInv ih (hx n)

/-- An operation that stays within a cycle either takes the next position, or is no tick service and leaves the position
and a pending tick (rules R71, R89, D9, D10). -/
theorem exec_within_cycle {i : Instr} {s t : State} (hx : exec i s = .next t) (hs : s.fsm = .sampling)
    (ht : t.fsm = .sampling) :
    t.pos.val = s.pos.val + 1 ∨
    (t.pos = s.pos ∧ (∀ v, i ≠ .ttk v) ∧ (i = .tex ∨ s.tmrPending = true → t.tmrPending = true)) := by
  cases execNext_of_exec hx
  case rst => simp at ht
  case first now seg he _ =>
    obtain ⟨-, hunmasked⟩ := he
    exact absurd hs hunmasked
  case noise now seg h =>
    obtain ⟨⟨-, hunmasked⟩, -⟩ := h
    exact absurd hs hunmasked
  case accepted now seg h =>
    obtain ⟨⟨-, hunmasked⟩, -⟩ := h
    exact absurd hs hunmasked
  case finalTick => simp at ht
  case tick v _ _ hpos => exact .inl (position_succ_val hpos)
  all_goals simp

section

variable {st : Nat → State} {op : Nat → Instr} {n : Nat}

/-- While the sequencer stays in SAMPLING, the position does not go back; by induction on the operations. -/
theorem pos_le_of_sampling (hx : IsExecution st op) (hstay : ∀ m, n ≤ m → (st m).fsm = .sampling) {a b : Nat}
    (ha : n ≤ a) (hab : a ≤ b) : (st a).pos.val ≤ (st b).pos.val := by
  induction b, hab using Nat.le_induction with
  | base => exact le_rfl
  | succ b hab ih =>
    rcases exec_within_cycle (hx b) (hstay b (by omega)) (hstay (b + 1) (by omega)) with hnext | ⟨hsame, -⟩
    · omega
    · rwa [hsame]

/-- A tick that is pending while the position stays put stays pending; by induction on the operations. -/
theorem tmrPending_stays (hx : IsExecution st op) (hstay : ∀ m, n ≤ m → (st m).fsm = .sampling)
    (hput : ∀ j, n ≤ j → (st (j + 1)).pos.val ≠ (st j).pos.val + 1) {a b : Nat} (ha : n ≤ a) (hab : a ≤ b)
    (hpend : (st a).tmrPending = true) : (st b).tmrPending = true := by
  induction b, hab using Nat.le_induction with
  | base => exact hpend
  | succ b hab ih =>
    obtain hnext | ⟨-, -, hkeep⟩ := exec_within_cycle (hx b) (hstay b (by omega)) (hstay (b + 1) (by omega))
    · exact absurd hnext (hput b (by omega))
    · exact hkeep (.inr ih)

/-- Under fairness a cycle that does not end takes a further position: the timer expires, the tick stays pending until it
is serviced, and its service moves the position (rules R151(e), R159; U11). -/
theorem exists_next_position (hx : IsExecution st op) (hseq : SequencerInv (st 0)) (htimer : TimerFair st op)
    (htick : TickServiceFair st op) (hstay : ∀ m, n ≤ m → (st m).fsm = .sampling) :
    ∃ j, n ≤ j ∧ (st (j + 1)).pos.val = (st j).pos.val + 1 := by
  by_contra hnone
  have hput : ∀ j, n ≤ j → (st (j + 1)).pos.val ≠ (st j).pos.val + 1 := fun j hj h => hnone ⟨j, hj, h⟩
  have hen : ∀ m, n ≤ m → (st m).tmrEn = true := fun m hm =>
    (sequencerInv_of_isExecution hx hseq m).samplingIffEnabled.mp (hstay m hm)
  have hwithin : ∀ m, n ≤ m → (∀ v, op m ≠ .ttk v) ∧ (op m = .tex → (st (m + 1)).tmrPending = true) := fun m hm => by
    obtain hnext | ⟨-, hno, hkeep⟩ := exec_within_cycle (hx m) (hstay m hm) (hstay (m + 1) (by omega))
    · exact absurd hnext (hput m hm)
    · exact ⟨hno, fun h => hkeep (.inl h)⟩
  obtain ⟨a, ha, hexpires⟩ := htimer n (hen n le_rfl)
  have htex : op a = .tex := hexpires.resolve_right (by simp [hen a ha])
  obtain ⟨-, hraises⟩ := hwithin a ha
  have hpend : (st (a + 1)).tmrPending = true := hraises htex
  obtain ⟨b, hb, hserviced⟩ := htick (a + 1) (by simp [ttkEnabled, hen (a + 1) (by omega), hpend])
  have hpend' := tmrPending_stays hx hstay hput (by omega) hb hpend
  obtain ⟨hno, -⟩ := hwithin b (by omega)
  obtain ⟨v, hv⟩ | hoff := hserviced
  · exact hno v hv
  · simp [ttkEnabled, hen b (by omega), hpend'] at hoff

end

/-- Settles O60: a cycle that did not end would reach every position (`exists_next_position`), and there are fourteen. -/
theorem fairTimerEndsEveryCycle : Obligations.FairTimerEndsEveryCycle := by
  unfold Obligations.FairTimerEndsEveryCycle
  intro st op hx hseq htimer htick n _
  by_contra hnone
  have hstay : ∀ m, n ≤ m → (st m).fsm = .sampling := fun m hm => by_contra fun h => hnone ⟨m, hm, h⟩
  have hreach : ∀ k, ∃ j, n ≤ j ∧ k ≤ (st j).pos.val := by
    intro k
    induction k with
    | zero => exact ⟨n, le_rfl, Nat.zero_le _⟩
    | succ k ih =>
      obtain ⟨j, hj, hk⟩ := ih
      obtain ⟨j', hj', hnext⟩ :=
        exists_next_position (n := j) hx hseq htimer htick fun m hm => hstay m (hj.trans hm)
      have hle := pos_le_of_sampling hx hstay hj hj'
      exact ⟨j' + 1, by omega, by omega⟩
  obtain ⟨j, -, hj⟩ := hreach 14
  exact absurd (st j).pos.isLt (by omega)

end Sys2Proof.Machine
end
